-- ==== Sys2Proof/Word.lean ====
section
/-! DEFINITION. The word types of the IR codec (spec 00_scope.md R6, R7). All arithmetic on them is unsigned and
wraps at the stated width unless a rule says otherwise (R7). -/
namespace Sys2Proof

/-- 8 bits: the temperature operand and the decoded temperature (R6). -/
abbrev Byte := BitVec 8
/-- 16 bits: a half-word of the frame buffer, a period, an on-time (R6, R42). -/
abbrev Half := BitVec 16
/-- 32 bits: a word of a frame buffer (R41, R43). -/
abbrev Word := BitVec 32
/-- 32 bits unsigned: the time operands `now` and `elapsedTicks` (R6). -/
abbrev Ticks := BitVec 32
/-- The 48-bit event word `EV[47:0]` (R60). -/
abbrev EventWord := BitVec 48
/-- The 16-bit response word `RSP[15:0]` (R67). -/
abbrev ResponseWord := BitVec 16
/-- The 36-bit effect word `FX[35:0]` (R69). -/
abbrev EffectWord := BitVec 36

end Sys2Proof
end

