-- ==== Sys2Proof/Syntax.lean ====
section
/-! DEFINITION. The events of the block: one constructor of `Instr` per row of spec/opcode_table.json (R2, R62), and the
raw fields of an event word (R60, R61). -/
namespace Sys2Proof

/-- The two wire encodings (R1). Coded Legacy = 0, Modern = 1 (R14): `variantBit` in Decode.lean. -/
inductive Variant where
  | legacy
  | modern
  deriving DecidableEq, Repr

/-- The six events, the block's "instructions" (R2). -/
inductive Instr where
  /-- REQ, `requestTemperature(temp, variant)` at current time `now` (R91). -/
  | req (v : Variant) (temp : Byte) (now : Ticks)
  /-- LEDON, `turnOnLED` (R99). -/
  | ledOn
  /-- LEDOFF, `turnOffLED` (R100). -/
  | ledOff
  /-- GETST, `getACStates()` (R101). -/
  | getSt
  /-- TICK, `IntervalElapsed` at current time `now` (R110). -/
  | tick (now : Ticks)
  /-- EDGE, `EdgeDetected(elapsedTicks)` (R140). -/
  | edge (elapsedTicks : Ticks)
  deriving DecidableEq, Repr

/-- The five fields of an event word, before any check (R60, R61). -/
structure EventFields where
  /-- `EV[47:45]` -/
  op : BitVec 3
  /-- `EV[44]` -/
  v : BitVec 1
  /-- `EV[43:40]` -/
  rsv : BitVec 4
  /-- `EV[39:32]` -/
  temp : Byte
  /-- `EV[31:0]` -/
  t32 : Word
  deriving DecidableEq, Repr

end Sys2Proof
end

