-- ==== Sys2Proof/WellFormed.lean ====
section
/-! DEFINITION. Which raw event fields are an event (R62, R64, R65) and which instructions are well formed. The decoder
(Decode.lean) makes its own checks; that it accepts exactly the well-formed fields is an obligation. -/
namespace Sys2Proof

/-- `op` is one of the six assigned codes, not 0b000 and not 0b111 (R62, R65). -/
def EventFields.opAssigned (f : EventFields) : Bool := f.op != 0#3 && f.op != 7#3

/-- `rsv` is 0 (R61, R65). -/
def EventFields.rsvZero (f : EventFields) : Bool := f.rsv == 0#4

/-- Every field the opcode map lists as "must be 0" for this `op` is 0 (R62, R64): REQ (1) uses `v`, `temp` and `t32`,
TICK (5) and EDGE (6) use `t32`, and LEDON, LEDOFF and GETST (2, 3, 4) use none. -/
def EventFields.unusedZero (f : EventFields) : Bool :=
  f.op == 1#3 ||
  (f.v == 0#1 && f.temp == 0#8 && (f.op == 5#3 || f.op == 6#3 || f.t32 == 0#32))

/-- The fields are those of an event, not of a reserved word (R65). -/
def EventFields.wellFormed (f : EventFields) : Bool := f.opAssigned && f.rsvZero && f.unusedZero

/-- Every value of the operand types is an operand the encoding admits: `Variant` has one bit, `Byte` eight, `Ticks` 32
(R61, R63). A REQ that names an unsupported temperature is a valid REQ that answers FAIL, not an ill-formed one (R65). So
no instruction is ill formed; the checks that can fail are those on raw fields above. -/
def Instr.wellFormed : Instr → Bool
  | .req _ _ _ => true
  | .ledOn => true
  | .ledOff => true
  | .getSt => true
  | .tick _ => true
  | .edge _ => true

end Sys2Proof
end

