-- ==== Sys2Proof/Decode.lean ====
section
/-! DEFINITION. The event word: its fields, the decoder, the encoder and the opcode map (R60 to R65). -/
namespace Sys2Proof

/-- Why an event word is reserved (R65). -/
inductive DecodeError where
  /-- op 0b000 or op 0b111. -/
  | reservedOp
  /-- `rsv` non-zero. -/
  | reservedField
  /-- A field the opcode map lists under "must be 0" is non-zero. -/
  | unusedField
  deriving DecidableEq, Repr

/-- Legacy = 0, Modern = 1 (R14, R61). -/
def variantBit : Variant → BitVec 1
  | .legacy => 0#1
  | .modern => 1#1

/-- The variant a `v` field names (R61). -/
def variantOf (b : BitVec 1) : Variant := if b = 0#1 then .legacy else .modern

/-- The fields of an event word (R60, R61). -/
def fieldsOf (w : EventWord) : EventFields where
  op := w.extractLsb' 45 3
  v := w.extractLsb' 44 1
  rsv := w.extractLsb' 40 4
  temp := w.extractLsb' 32 8
  t32 := w.extractLsb' 0 32

/-- The event word with the given fields (R60): op in bits 47:45, then `v`, `rsv`, `temp`, `t32`. -/
def wordOf (f : EventFields) : EventWord := f.op ++ f.v ++ f.rsv ++ f.temp ++ f.t32

/-- The event a set of fields stands for, or the reason the word is reserved (R62, R64, R65). -/
def decodeFields (f : EventFields) : Except DecodeError Instr :=
  if f.op = 0#3 ∨ f.op = 7#3 then .error .reservedOp
  else if f.rsv ≠ 0#4 then .error .reservedField
  else if f.op = 1#3 then .ok (.req (variantOf f.v) f.temp f.t32)
  else if f.v ≠ 0#1 ∨ f.temp ≠ 0#8 then .error .unusedField
  else if f.op = 5#3 then .ok (.tick f.t32)
  else if f.op = 6#3 then .ok (.edge f.t32)
  else if f.t32 ≠ 0#32 then .error .unusedField
  else if f.op = 2#3 then .ok .ledOn
  else if f.op = 3#3 then .ok .ledOff
  else .ok .getSt

/-- The decoder: total on every 48-bit word (R62, R65). -/
def decode (w : EventWord) : Except DecodeError Instr := decodeFields (fieldsOf w)

/-- The fields of an event (R62). -/
def fieldsOfInstr : Instr → EventFields
  | .req v temp now => ⟨1#3, variantBit v, 0#4, temp, now⟩
  | .ledOn => ⟨2#3, 0#1, 0#4, 0#8, 0#32⟩
  | .ledOff => ⟨3#3, 0#1, 0#4, 0#8, 0#32⟩
  | .getSt => ⟨4#3, 0#1, 0#4, 0#8, 0#32⟩
  | .tick now => ⟨5#3, 0#1, 0#4, 0#8, now⟩
  | .edge e => ⟨6#3, 0#1, 0#4, 0#8, e⟩

/-- The encoder: the one spelling of an event (R62, R64). -/
def encode (i : Instr) : EventWord := wordOf (fieldsOfInstr i)

/-- The "match" value of an event's row (R62). -/
def rowPattern : Instr → EventWord
  | .req _ _ _ => 0x200000000000#48
  | .ledOn => 0x400000000000#48
  | .ledOff => 0x600000000000#48
  | .getSt => 0x800000000000#48
  | .tick _ => 0xA00000000000#48
  | .edge _ => 0xC00000000000#48

/-- The "mask" value of an event's row (R62). -/
def rowMask : Instr → EventWord
  | .req _ _ _ => 0xEF0000000000#48
  | .ledOn => 0xFFFFFFFFFFFF#48
  | .ledOff => 0xFFFFFFFFFFFF#48
  | .getSt => 0xFFFFFFFFFFFF#48
  | .tick _ => 0xFFFF00000000#48
  | .edge _ => 0xFFFF00000000#48

/-- The instruction the decoder reads from the word whose number is `w`, as spec/opcode_table.json numbers its bits: an
event is ONE 48-bit word and bit 0 is `EV[0]`, so the number is the event word itself (R60; assumption log 1). A table
row of fewer bits would have zeros above; a number that needs more than `nbits` bits, or more than 48, is no event. -/
def decodeTableWord (nbits w : Nat) : Option Instr :=
  if nbits ≤ 48 ∧ w < 2 ^ nbits then
    match decode (BitVec.ofNat 48 w) with
    | .ok i => some i
    | .error _ => none
  else none

end Sys2Proof
end

