-- ==== Sys2Proof/Machine/Constants.lean ====
section
/-! DEFINITION. The named constants of R4 with the values the spec fixes, and the supported temperature sets (R94). -/
namespace Sys2Proof.Machine

/-- `FRAME_BITS[v]` (R4): 113 or 48. -/
def frameBits : Variant → BitVec 8
  | .legacy => 113#8
  | .modern => 48#8

/-- `WORD_BITS[v]` (R4): 32 or 16. -/
def wordBits : Variant → Nat
  | .legacy => 32
  | .modern => 16

/-- `FRAME_WORDS` (R4). -/
def frameWords : Nat := 4

/-- `GUARD_TICKS` (R4). -/
def guardTicks : Ticks := 100#32

/-- `LEGACY_REINVOKES` (R4). -/
def legacyReinvokes : Nat := 5

/-- `MODERN_FRAMES` (R4). -/
def modernFrames : Nat := 10

/-- `TH_RESYNC` (R4). -/
def thResync : Ticks := 400#32

/-- `TH_ONE` (R4). -/
def thOne : Ticks := 160#32

/-- `TH_ZERO` (R4): it separates the classes zero and short, which accumulate the same bit (R142, R144). -/
def thZero : Ticks := 80#32

/-- `DEC_WORD_BITS` (R4). -/
def decWordBits : Nat := 32

/-- `DEC_WORDS` (R4). -/
def decWords : Nat := 4

/-- `DEC_EDGE_TOTAL` (R4). -/
def decEdgeTotal : Word := 114#32

/-- `DEC_TEMP_MIN` (R4): the lowest of the interpreter's known codes. -/
def decTempMin : Nat := 16

/-- `DEC_TEMP_MAX` (R4): the highest of the interpreter's known codes. -/
def decTempMax : Nat := 30

/-- `DEC_TEMP_MIN` to `DEC_TEMP_MAX` ascending: the 15 known codes of the interpreter (R4, R162). They are also the
temperatures, other than 0 and 5, of the two supported sets (R94). -/
def tempRange : List Byte := (List.range' decTempMin (decTempMax + 1 - decTempMin)).map (BitVec.ofNat 8)

/-- `FAN_PATTERNS` (R4): the number of known fan bit patterns. -/
abbrev fanPatterns : Nat := 3

/-- `TEMP_SET[v]` (R4, R94): 0 is off; 5 under Legacy only. -/
def tempSet : Variant → List Byte
  | .legacy => 0#8 :: 5#8 :: tempRange
  | .modern => 0#8 :: tempRange

/-- `TEMP_UNKNOWN`, -1 in 8 bits two's complement (R4, R162). -/
def tempUnknown : Byte := 0xFF#8

/-- The fan index when no pattern matches (R163). -/
def fanNone : BitVec 2 := 3#2

end Sys2Proof.Machine
end

