-- ==== Sys2Proof/Config.lean ====
section
/-! DEFINITION. What the spec leaves open: the ROM contents and interpreter constants (R5), which every rule takes as given
and no event can write (R40, R44), and the free values. The machine's own configuration is the constant `Config.board`,
which has no body: nothing can be proved of its contents, so a statement about `exec` holds for every configuration
(assumption log 3). The constants whose VALUES the spec fixes (R4) are in Machine/Constants.lean. -/
namespace Sys2Proof

/-- One entry of the timing table ROM, "in timer ticks" (R44, R45). -/
structure TimingEntry where
  /-- bits 31:16 of the entry -/
  period : Half
  /-- bits 15:0 of the entry -/
  onTime : Half
  deriving DecidableEq, Repr, Inhabited

/-- The timing table ROM: its seven entries and no others (R44). -/
structure TimingTable where
  legacyStart : TimingEntry
  legacyOne : TimingEntry
  legacyZero : TimingEntry
  modernStart : TimingEntry
  modernOne : TimingEntry
  modernZero : TimingEntry
  modernRest : TimingEntry
  deriving DecidableEq, Repr, Inhabited

/-- One entry of the Legacy code ROM: two payload words and the checksum word (R48). -/
structure CodeL where
  c1 : Word
  c2 : Word
  ck : Word
  deriving DecidableEq, Repr, Inhabited

/-- One entry of the Modern code ROM: payload half-word and checksum half-word (R49). -/
structure CodeM where
  c1 : Half
  ck : Half
  deriving DecidableEq, Repr, Inhabited

/-- The open parameters of the block (R5) and its free values. -/
structure Config where
  /-- `TT`, the timing table ROM (R44). -/
  tt : TimingTable
  /-- `ADDR_L`, the Legacy address constant (R48). -/
  addrL : Word
  /-- `ADDR_M`, the Modern address constant (R49). -/
  addrM : Half
  /-- `CODE_L[t]` (R48). The ROM has entries for `TEMP_SET[Legacy]` only; at any other index the value is FREE, and
  no rule forms such an index in a state a run reaches (R102; assumption log 5). -/
  codeL : Byte → CodeL
  /-- `CODE_M[t]` (R49). The ROM has entries for `TEMP_SET[Modern]` only; FREE elsewhere, as `codeL` (log 5). -/
  codeM : Byte → CodeM
  /-- `FAN_MASK` (R58). -/
  fanMask : Word
  /-- `FAN_PATTERN[i]`, i below `FAN_PATTERNS` (R4, R58). -/
  fanPattern : Fin Machine.fanPatterns → Word
  /-- `BLOWER_SHIFT`, 0..31 (R5). -/
  blowerShift : BitVec 5
  /-- `BLOWER_FIELD_MASK` (R58). -/
  blowerFieldMask : Word
  /-- `BLOWER_THRESHOLD` (R58). -/
  blowerThreshold : Word
  /-- Numerator of `RX_PER_TX`, the decoder ticks per timer tick; used only by `edgesOf`, never by `step` (R5, R219). -/
  rxPerTxNum : Nat
  /-- Denominator of `RX_PER_TX` (R5). -/
  rxPerTxDen : Nat
  /-- FREE VALUE, the model's own: the bit a fetch answers where `wordIndex` or `bitIndex` points outside the buffer,
  which R51 says happens in no state a run reaches (assumption log 4). -/
  absentBit : Variant → BitVec 3 → BitVec 5 → Bool
  /-- FREE VALUE, the model's own: the EDGE operand of a converted interval `c(p)` that 32 bits do not hold. The spec gives
  no rule for one (R77; 91_not_in_source.md N11; assumption log 11). Used only by `edgeOperand`, never by `step`. -/
  wideInterval : Nat → Ticks
  deriving Inhabited

/-- The configuration of the machine at hand: any (R5; 92_eei_decisions.md D34). It has no body. -/
opaque Config.board : Config

/-- R45: "`period >= 1` and `onTime <= period`". The block neither checks nor needs it. -/
def TimingEntry.wellFormed (e : TimingEntry) : Bool := decide (1#16 ≤ e.period) && decide (e.onTime ≤ e.period)

/-- R45 for all seven entries. -/
def TimingTable.wellFormed (t : TimingTable) : Bool :=
  t.legacyStart.wellFormed && t.legacyOne.wellFormed && t.legacyZero.wellFormed &&
  t.modernStart.wellFormed && t.modernOne.wellFormed && t.modernZero.wellFormed && t.modernRest.wellFormed

/-- R5: `FAN_PATTERN[i] & FAN_MASK == FAN_PATTERN[i]`. -/
def Config.fanPatternsMasked (c : Config) : Bool :=
  (List.finRange Machine.fanPatterns).all (fun i => c.fanPattern i &&& c.fanMask == c.fanPattern i)

/-- R5: `RX_PER_TX` is a positive rational. -/
def Config.ratioPositive (c : Config) : Bool := decide (0 < c.rxPerTxNum) && decide (0 < c.rxPerTxDen)

/-- The interpreter's known codes: `CODE_L[t].c1`, t from `DEC_TEMP_MIN` to `DEC_TEMP_MAX` (R58, R162). -/
def Config.knownCodes (c : Config) : List Word := Machine.tempRange.map (fun t => (c.codeL t).c1)

/-- R162: "a well-formed `Config` has the 15 words distinct". -/
def Config.codesDistinct (c : Config) : Bool := decide c.knownCodes.Nodup

/-- A well-formed configuration (R5, R45, R162). No rule of the block depends on it; a claim that needs it says so. -/
def Config.wellFormed (c : Config) : Bool :=
  c.tt.wellFormed && c.fanPatternsMasked && c.ratioPositive && c.codesDistinct

end Sys2Proof
end

