-- ==== Sys2Proof/Machine/State.lean ====
section
/-! DEFINITION. The state of the block (R10: 404 bits), as plain data, with the model's own fields for its ports; the
response and effect types (R66, R69); reset (R37). -/
namespace Sys2Proof.Machine

/-- The encoder record `ENC` (R11 to R21). -/
structure Enc where
  /-- R11: a command is in flight. -/
  issued : Bool
  /-- R12: the start-bit timing of the current frame has been programmed. -/
  addressSent : Bool
  /-- R13: the first handled TICK after the address phase has been taken. -/
  commReady : Bool
  /-- R14. -/
  variant : Variant
  /-- R15: 0 after reset, else 113 or 48. -/
  frameLenBits : BitVec 8
  /-- R16: bits of the current word already programmed. -/
  bitIndex : BitVec 5
  /-- R17: index of the current word in the view of the variant. -/
  wordIndex : BitVec 3
  /-- R18: re-invocations so far for the current command. -/
  repeatCount : BitVec 4
  /-- R19: the Legacy "repeat" flag; inverted by each Legacy re-invocation, read by nothing. -/
  repeatFlag : Bool
  /-- R20: `now` when the current frame was issued. -/
  issuedAtTick : Ticks
  /-- R21: temperature of the last successful REQ. -/
  currentTemp : Byte
  deriving DecidableEq, Repr

/-- A 128-bit frame buffer as its four 32-bit words (R24, R30, R41, R43). The half-word view of `F` is computed from
the words (R42): `FrameBuf.half?` and `FrameBuf.setHalf` in Ops.lean. -/
structure FrameBuf where
  w0 : Word
  w1 : Word
  w2 : Word
  w3 : Word
  deriving DecidableEq, Repr

/-- The decoder record `DEC` (R25 to R28). -/
structure Dec where
  /-- R25: the word being assembled. -/
  accumulatingWord : Word
  /-- R26: 0..31 between events. -/
  bitIndex : BitVec 5
  /-- R27: index in `RX` of the next finalised word. -/
  wordSlot : BitVec 2
  /-- R28: edges since the last hand-off, modulo 2^32. -/
  edgeCount : Word
  deriving DecidableEq, Repr

/-- The last-decoded register `LAST` (R31). -/
structure Last where
  /-- 8 bits two's complement; 0xFF is "unknown (-1)". -/
  temperature : Byte
  /-- 0, 1, 2: the matched pattern; 3: none matched. -/
  fanIndex : BitVec 2
  blowerOn : Bool
  deriving DecidableEq, Repr

/-- The response codes (R66). -/
inductive RspCode where
  | ack
  | nak
  | ok
  | fail
  deriving DecidableEq, Repr

/-- A response: code and 11-bit payload (R67). -/
structure Response where
  code : RspCode
  payload : BitVec 11
  deriving DecidableEq, Repr

/-- The four effects (R3, R69). -/
inductive Effect where
  /-- Program the Timing Source (R186). -/
  | setInterval (period onTime : Half)
  /-- Open the carrier gate (R189). -/
  | carrierOn
  /-- Close the carrier gate (R189). -/
  | carrierOff
  /-- The fields of the report (R168). -/
  | report (temperature : Byte) (fanIndex : BitVec 2) (blowerOn : Bool)
  deriving DecidableEq, Repr

/-- The block (R10) and its ports. The last three fields are the model's own: the spec counts the event stream and the
outputs of an event outside the block's state (00_scope.md section 5, R3; assumption logs 1 and 2). -/
structure State where
  /-- `ENC`. -/
  enc : Enc
  /-- `F`, the transmit frame buffer. -/
  f : FrameBuf
  /-- `carrierEnable`, the level output `carrier_en` (R22). -/
  carrierEnable : Bool
  /-- `DEC`. -/
  dec : Dec
  /-- `RX`, the receive frame buffer. -/
  rx : FrameBuf
  /-- `LAST`. -/
  last : Last
  /-- The event words the environment presents on the event port, the next one first (R60, R182; log 1). -/
  stream : List EventWord
  /-- The response to the last event, none before the first (R66; log 2). -/
  response : Option Response
  /-- The effects of the last event, in the order emitted (R3; log 2). -/
  effects : List Effect
  deriving DecidableEq, Repr

/-- Faults: none. "`step` is total: every event word in every state yields a next state, a response and an effect list.
A model needs no fault outcome for this block" (R175). Nothing raises one; that is safe (assumption log 9). -/
inductive Fault where
  deriving DecidableEq, Repr

/-- Refusals. A reserved event word is no refusal of the model: it is answered NAK in a next state (R65, R178). -/
inductive Refusal where
  /-- An instruction without a meaning yet, raised by an arm of `exec` only. No arm raises it: every event has its
  meaning. Safe: the run stops. -/
  | notModelled (mnemonic : String)
  deriving DecidableEq, Repr

/-- Both frame buffers are zero after reset (R37). -/
def FrameBuf.zero : FrameBuf := ⟨0#32, 0#32, 0#32, 0#32⟩

/-- R37: Idle, everything 0. -/
def Enc.reset : Enc where
  issued := false
  addressSent := false
  commReady := false
  variant := .legacy
  frameLenBits := 0#8
  bitIndex := 0#5
  wordIndex := 0#3
  repeatCount := 0#4
  repeatFlag := false
  issuedAtTick := 0#32
  currentTemp := 0#8

/-- R37: word 0, bit 0, edge count 0. -/
def Dec.reset : Dec := ⟨0#32, 0#5, 0#2, 0#32⟩

/-- R37: zeros that no frame produced. -/
def Last.reset : Last := ⟨0#8, 0#2, false⟩

/-- The state after reset: "every bit of `State` is 0" (R37, R200), no effect emitted (R201), nothing presented. -/
def State.reset : State where
  enc := Enc.reset
  f := FrameBuf.zero
  carrierEnable := false
  dec := Dec.reset
  rx := FrameBuf.zero
  last := Last.reset
  stream := []
  response := none
  effects := []

end Sys2Proof.Machine
end

