-- ==== Sys2Proof/Machine/Ops.lean ====
section
/-! DEFINITION. The named operations over the state: the two buffer views (R41 to R43), field writes, `emit` and `respond`
(R8), the carrier gate (R22), the frame population (R102), `issue` (R92), and the answer to a reserved word (R178). The
block takes no exception (R175, R190), so there is no entry and no return to share. -/
namespace Sys2Proof.Machine

/-! ### Frame buffers -/

/-- The buffer as one 128-bit value (R41). -/
def FrameBuf.bits (b : FrameBuf) : BitVec 128 := b.w3 ++ b.w2 ++ b.w1 ++ b.w0

/-- Word view: `w[i]`, i in 0..3 (R41, R43); there is no other word. -/
def FrameBuf.word? (b : FrameBuf) : Nat → Option Word
  | 0 => some b.w0
  | 1 => some b.w1
  | 2 => some b.w2
  | 3 => some b.w3
  | _ => none

/-- Write through the word view (R8, R147): exactly that word changes. -/
def FrameBuf.setWord (b : FrameBuf) (i : Nat) (v : Word) : FrameBuf :=
  match i with
  | 0 => { b with w0 := v }
  | 1 => { b with w1 := v }
  | 2 => { b with w2 := v }
  | 3 => { b with w3 := v }
  | _ => b

/-- The less significant half of a word: the lower half-word index (R42). -/
def lowHalf (w : Word) : Half := w.extractLsb' 0 16

/-- The more significant half of a word (R42). -/
def highHalf (w : Word) : Half := w.extractLsb' 16 16

/-- Half-word view: `h[2i]` is `w[i][15:0]` and `h[2i+1]` is `w[i][31:16]`, j in 0..7 (R42). -/
def FrameBuf.half? (b : FrameBuf) : Nat → Option Half
  | 0 => some (lowHalf b.w0)
  | 1 => some (highHalf b.w0)
  | 2 => some (lowHalf b.w1)
  | 3 => some (highHalf b.w1)
  | 4 => some (lowHalf b.w2)
  | 5 => some (highHalf b.w2)
  | 6 => some (lowHalf b.w3)
  | 7 => some (highHalf b.w3)
  | _ => none

/-- A word with its less significant half replaced. -/
def withLowHalf (w : Word) (v : Half) : Word := highHalf w ++ v

/-- A word with its more significant half replaced. -/
def withHighHalf (w : Word) (v : Half) : Word := v ++ lowHalf w

/-- Write through the half-word view: "changes exactly those bits" (R42). -/
def FrameBuf.setHalf (b : FrameBuf) (j : Nat) (v : Half) : FrameBuf :=
  match j with
  | 0 => { b with w0 := withLowHalf b.w0 v }
  | 1 => { b with w0 := withHighHalf b.w0 v }
  | 2 => { b with w1 := withLowHalf b.w1 v }
  | 3 => { b with w1 := withHighHalf b.w1 v }
  | 4 => { b with w2 := withLowHalf b.w2 v }
  | 5 => { b with w2 := withHighHalf b.w2 v }
  | 6 => { b with w3 := withLowHalf b.w3 v }
  | 7 => { b with w3 := withHighHalf b.w3 v }
  | _ => b

/-! ### State writes -/

/-- Write `ENC`. -/
def State.setEnc (s : State) (e : Enc) : State := { s with enc := e }

/-- Write `F`. -/
def State.setF (s : State) (b : FrameBuf) : State := { s with f := b }

/-- Write `carrierEnable`. -/
def State.setCarrier (s : State) (b : Bool) : State := { s with carrierEnable := b }

/-- Write `DEC`. -/
def State.setDec (s : State) (d : Dec) : State := { s with dec := d }

/-- Write `RX`. -/
def State.setRx (s : State) (b : FrameBuf) : State := { s with rx := b }

/-- Write `LAST`, all three fields together (R166). -/
def State.setLast (s : State) (l : Last) : State := { s with last := l }

/-- `respond r` (R8): set the event's response; the payload is 0 but for GETST (R67). -/
def State.respond (s : State) (code : RspCode) (payload : BitVec 11) : State :=
  { s with response := some ⟨code, payload⟩ }

/-- `emit E` (R8): append to the event's effect list. -/
def State.emit (s : State) (e : Effect) : State := { s with effects := s.effects ++ [e] }

/-- Every event begins with an empty effect list, and answers `ACK` unless its rule responds otherwise (R8, R66). -/
def State.begin (s : State) : State := { s with response := some ⟨.ack, 0#11⟩, effects := [] }

/-- The answer to a reserved event word: `NAK`, no state change, no effect (R65, R178). -/
def State.nak (s : State) : State := s.begin.respond .nak 0#11

/-- Program the Timing Source with a table entry: `SetInterval` "passes the two numbers unchanged" (R45, R186). -/
def State.program (s : State) (e : TimingEntry) : State := s.emit (.setInterval e.period e.onTime)

/-- `emit CarrierOn` with `carrierEnable <- 1`, always in the same event (R22). -/
def State.openGate (s : State) : State := (s.emit .carrierOn).setCarrier true

/-- `emit CarrierOff` with `carrierEnable <- 0` (R22). -/
def State.closeGate (s : State) : State := (s.emit .carrierOff).setCarrier false

/-! ### Issuing a frame -/

/-- `loadFrame(temp, v)` on the buffer (R102): four words for Legacy (R70); three half-words for Modern (R71), the other
five unchanged. -/
def loadFrame (c : Config) (temp : Byte) (v : Variant) (b : FrameBuf) : FrameBuf :=
  match v with
  | .legacy =>
    (((b.setWord 0 c.addrL).setWord 1 (c.codeL temp).c1).setWord 2 (c.codeL temp).c2).setWord 3 (c.codeL temp).ck
  | .modern =>
    ((b.setHalf 0 c.addrM).setHalf 1 (c.codeM temp).c1).setHalf 2 (c.codeM temp).ck

/-- `issue(temp, v, tick)`, shared by REQ and by re-invocation (R92, R122). -/
def issue (c : Config) (temp : Byte) (v : Variant) (tick : Ticks) (s : State) : State :=
  (s.setF (loadFrame c temp v s.f)).setEnc
    { s.enc with
      issued := true, addressSent := false, commReady := false, variant := v,
      frameLenBits := frameBits v, issuedAtTick := tick, currentTemp := temp }

/-- `toIdle()` (R123): it clears `issued` and `repeatCount` only. -/
def toIdle (s : State) : State := s.setEnc { s.enc with issued := false, repeatCount := 0#4 }

end Sys2Proof.Machine
end

