-- ==== Sys2Proof/Machine/Operands.lean ====
section
/-! DEFINITION. The operand forms: the supported temperatures (R94), the timing table lookup (R44, R47), the bit fetch
(R117), the edge classes (R142), and the interpreter's three field extractions (R162 to R164). -/
namespace Sys2Proof.Machine

/-- `temp in TEMP_SET[v]` (R94). -/
def tempSupported (v : Variant) (temp : Byte) : Bool := (tempSet v).contains temp

/-- `TT[v][start]` (R44). -/
def startEntry (c : Config) : Variant → TimingEntry
  | .legacy => c.tt.legacyStart
  | .modern => c.tt.modernStart

/-- `TT[v][one]` for a bit of 1 and `TT[v][zero]` for a bit of 0 (R44, R116). -/
def dataEntry (c : Config) (v : Variant) (bit : Bool) : TimingEntry :=
  match v, bit with
  | .legacy, true => c.tt.legacyOne
  | .legacy, false => c.tt.legacyZero
  | .modern, true => c.tt.modernOne
  | .modern, false => c.tt.modernZero

/-- `TT[Modern][rest]` (R44, R121). -/
def restEntry (c : Config) : TimingEntry := c.tt.modernRest

/-- `fetchBit()` (R117): `F.w[wordIndex][31 - bitIndex]` for Legacy, `F.h[wordIndex][15 - bitIndex]` for Modern. Where
an index points outside the buffer, which R51 says no run reaches, the bit is the free value `Config.absentBit`
(DESIGN CHOICE, assumption log 4). -/
def fetchBit (c : Config) (e : Enc) (b : FrameBuf) : Bool :=
  match e.variant with
  | .legacy =>
    match b.word? e.wordIndex.toNat with
    | some w => w.getLsbD (31 - e.bitIndex.toNat)
    | none => c.absentBit .legacy e.wordIndex e.bitIndex
  | .modern =>
    match b.half? e.wordIndex.toNat with
    | some h => if e.bitIndex.toNat ≤ 15 then h.getLsbD (15 - e.bitIndex.toNat) else c.absentBit .modern e.wordIndex e.bitIndex
    | none => c.absentBit .modern e.wordIndex e.bitIndex

/-- The classes of an inter-edge interval (R142). -/
inductive EdgeClass where
  /-- e > 400: no bit. -/
  | resync
  /-- 161..400: bit 1. -/
  | one
  /-- 81..160: bit 0. -/
  | zero
  /-- 0..80: no class of its own in the source; bit 0 (R144). -/
  | short
  deriving DecidableEq, Repr

/-- R142: the comparisons are unsigned and tried in this order. -/
def classifyEdge (e : Ticks) : EdgeClass :=
  if thResync < e then .resync
  else if thOne < e then .one
  else if thZero < e then .zero
  else .short

/-- The bit a class accumulates; a resync accumulates none (R142, R144). -/
def edgeBit : EdgeClass → Option Bool
  | .resync => none
  | .one => some true
  | .zero => some false
  | .short => some false

/-- `word[31 - bitIndex] <- b`, the other 31 bits kept (R145). -/
def setAccBit (w : Word) (bitIndex : BitVec 5) (b : Bool) : Word :=
  if b then w ||| BitVec.twoPow 32 (31 - bitIndex.toNat) else w &&& ~~~(BitVec.twoPow 32 (31 - bitIndex.toNat))

/-- R162: the first t of 16..30, ascending, whose `CODE_L[t].c1` is the whole word; -1 if none. -/
def decodeTemp (c : Config) (w : Word) : Byte :=
  match tempRange.find? (fun t => w == (c.codeL t).c1) with
  | some t => t
  | none => tempUnknown

/-- R163: the index of the first pattern the masked word equals; 3 if none. -/
def decodeFan (c : Config) (w : Word) : BitVec 2 :=
  match (List.finRange fanPatterns).find? (fun i => w &&& c.fanMask == c.fanPattern i) with
  | some i => BitVec.ofNat 2 i.val
  | none => fanNone

/-- R164: the shifted and masked sub-field is strictly greater, unsigned, than the threshold. -/
def decodeBlower (c : Config) (w : Word) : Bool :=
  decide (c.blowerThreshold < (w >>> c.blowerShift.toNat) &&& c.blowerFieldMask)

end Sys2Proof.Machine
end

