-- ==== Sys2Proof/Machine/Edge.lean ====
section
/-! DEFINITION. EDGE: edge classifier, bit accumulator, frame assembler (R140 to R148), and the frame interpreter it runs
at a hand-off (R160 to R169). Response always `ACK`. -/
namespace Sys2Proof.Machine

/-- The values one frame decodes to (R162 to R165). `RX.w[3]` is not read (R169). -/
def decodeFrame (c : Config) (b : FrameBuf) : Last :=
  ⟨decodeTemp c b.w1, decodeFan c b.w2, decodeBlower c b.w2⟩

/-- `interpret(RX)` (R160): on an address mismatch nothing (R161); else `LAST` is overwritten (R166) and one `Report` is
emitted (R168). -/
def interpret (c : Config) (s : State) : State :=
  if s.rx.w0 = c.addrL then
    (s.setLast (decodeFrame c s.rx)).emit
      (.report (decodeFrame c s.rx).temperature (decodeFrame c s.rx).fanIndex (decodeFrame c s.rx).blowerOn)
  else s

/-- Resync (R143): the partial word and the slot are dropped; the event ends. -/
def resyncDec (d : Dec) : Dec := { d with accumulatingWord := 0#32, bitIndex := 0#5, wordSlot := 0#2 }

/-- The word is finalised now (R146): the incremented bit index is 32, or the edge count (already incremented) is 114.
`d` is the record after the count and before the bit index moves. -/
def finaliseNow (d : Dec) : Bool := d.bitIndex.toNat + 1 == decWordBits || d.edgeCount == decEdgeTotal

/-- Frame hand-off (R148), the fourth word stored: interpret, then position (0, 0, 0). -/
def handOff (c : Config) (s : State) : State :=
  (interpret c s).setDec { s.dec with wordSlot := 0#2, edgeCount := 0#32 }

/-- Finalisation (R147): the word goes to its slot, the accumulator is cleared, the slot advances; 4 hands off. -/
def finaliseWord (c : Config) (s : State) : State :=
  if s.dec.wordSlot.toNat + 1 = decWords then
    handOff c
      ((s.setRx (s.rx.setWord s.dec.wordSlot.toNat s.dec.accumulatingWord)).setDec
        { s.dec with accumulatingWord := 0#32, bitIndex := 0#5 })
  else
    (s.setRx (s.rx.setWord s.dec.wordSlot.toNat s.dec.accumulatingWord)).setDec
      { s.dec with accumulatingWord := 0#32, bitIndex := 0#5, wordSlot := s.dec.wordSlot + 1#2 }

/-- A data edge (R145 to R147): accumulate the bit, then finalise the word or advance the bit index. `s` has counted
the edge. -/
def dataEdge (c : Config) (bit : Bool) (s : State) : State :=
  if finaliseNow s.dec then
    finaliseWord c (s.setDec { s.dec with accumulatingWord := setAccBit s.dec.accumulatingWord s.dec.bitIndex bit })
  else
    s.setDec
      { s.dec with
        accumulatingWord := setAccBit s.dec.accumulatingWord s.dec.bitIndex bit, bitIndex := s.dec.bitIndex + 1#5 }

/-- Every EDGE first adds 1 to `edgeCount`, modulo 2^32 (R141). -/
def countEdge (d : Dec) : Dec := { d with edgeCount := d.edgeCount + 1#32 }

/-- EDGE over a given configuration (R140). -/
def edgeWith (c : Config) (elapsed : Ticks) (s : State) : State :=
  match edgeBit (classifyEdge elapsed) with
  | none => s.begin.setDec (resyncDec (countEdge s.dec))
  | some bit => dataEdge c bit (s.begin.setDec (countEdge s.dec))

/-- The meaning of EDGE. -/
def execEdge (elapsed : Ticks) (s : State) : Host.Outcome State Fault Refusal := .next (edgeWith Config.board elapsed s)

end Sys2Proof.Machine
end

