-- ==== Sys2Proof/Machine/Output.lean ====
section
/-! DEFINITION. The output side: response words (R66 to R68), effect words (R69), the gate level and the gating equation
(R214). -/
namespace Sys2Proof.Machine

/-- The value of a response code (R66). -/
def rspCodeBits : RspCode → BitVec 2
  | .ack => 0#2
  | .nak => 1#2
  | .ok => 2#2
  | .fail => 3#2

/-- The response word: code, three 0 bits, payload (R67). -/
def responseWord (r : Response) : ResponseWord := rspCodeBits r.code ++ 0#3 ++ r.payload

/-- A 1-bit value of a flag: true = 1 (R7). -/
def flagBit (b : Bool) : BitVec 1 := if b then 1#1 else 0#1

/-- The 11 bits of `LAST` as GETST and Report carry them: blowerOn, fanIndex, temperature (R68, R69). -/
def lastPayload (l : Last) : BitVec 11 := flagBit l.blowerOn ++ l.fanIndex ++ l.temperature

/-- The effect word: 4-bit kind, 32-bit payload (R69). -/
def effectWord : Effect → EffectWord
  | .setInterval p o => 1#4 ++ p ++ o
  | .carrierOn => 2#4 ++ 0#32
  | .carrierOff => 3#4 ++ 0#32
  | .report t f b => 4#4 ++ (0#21 ++ lastPayload ⟨t, f, b⟩)

/-- The gate level an effect sets, if it is a gate effect (R22). -/
def gateLevel : Effect → Option Bool
  | .setInterval _ _ => none
  | .carrierOn => some true
  | .carrierOff => some false
  | .report _ _ _ => none

/-- The level the gate holds after a list of effects, from the level before it: the last gate effect's, if any (R22). -/
def gateAfter (level : Bool) (fx : List Effect) : Bool :=
  fx.foldl (fun l e => (gateLevel e).getD l) level

/-- The Timing Source's output at tick `t` of a period: high for the first `onTime` ticks (R214, informative). -/
def envelope (e : TimingEntry) (t : Nat) : Bool := decide (t < e.onTime.toNat)

/-- `ir_out = carrierEnable AND envelope AND carrier` (R214, informative: no event reads it). -/
def irOut (s : State) (env carrier : Bool) : Bool := s.carrierEnable && env && carrier

end Sys2Proof.Machine
end

