-- ==== Sys2Proof/Machine/HostEvents.lean ====
section
/-! DEFINITION. The four host events (40_host_ops.md). Each `…With` is the event over a given configuration, in the shape
of R3; the meaning `exec…` is the same at the machine's own configuration. -/
namespace Sys2Proof.Machine

/-- REQ (R91): restart of the sequencer (R95), then `issue` (R92), `OK`; or `FAIL` and nothing else (R97). -/
def reqWith (c : Config) (v : Variant) (temp : Byte) (now : Ticks) (s : State) : State :=
  if tempSupported v temp then
    (issue c temp v now
      (s.begin.setEnc { s.enc with bitIndex := 0#5, wordIndex := 0#3, repeatCount := 0#4 })).respond .ok 0#11
  else s.begin.respond .fail 0#11

/-- LEDON (R99). -/
def ledOnWith (s : State) : State := s.begin.openGate

/-- LEDOFF (R100): no cancellation; the sequencer is not touched (R218). -/
def ledOffWith (s : State) : State := s.begin.closeGate

/-- GETST (R101): `ACK` with the payload of R68. -/
def getStWith (s : State) : State := s.begin.respond .ack (lastPayload s.last)

/-- The meaning of REQ. -/
def execReq (v : Variant) (temp : Byte) (now : Ticks) (s : State) : Host.Outcome State Fault Refusal :=
  .next (reqWith Config.board v temp now s)

/-- The meaning of LEDON. -/
def execLedOn (s : State) : Host.Outcome State Fault Refusal := .next (ledOnWith s)

/-- The meaning of LEDOFF. -/
def execLedOff (s : State) : Host.Outcome State Fault Refusal := .next (ledOffWith s)

/-- The meaning of GETST. -/
def execGetSt (s : State) : Host.Outcome State Fault Refusal := .next (getStWith s)

end Sys2Proof.Machine
end

