-- ==== Sys2Proof/Machine/Flags.lean ====
section
/-! DEFINITION. The conditions the encoder's state machine tests (R23, R112, R115) and the phase they add up to. The block
has no condition codes (R32). -/
namespace Sys2Proof.Machine

/-- The guard check (R112): the TICK is ignored iff `(now -_32 issuedAtTick) < 100`. -/
def inGuardWindow (e : Enc) (now : Ticks) : Bool := decide (now - e.issuedAtTick < guardTicks)

/-- `total = wordIndex * W + bitIndex`, a natural number that does not wrap (R115, R171 row 3). -/
def totalBits (e : Enc) : Nat := e.wordIndex.toNat * wordBits e.variant + e.bitIndex.toNat

/-- `total < frameLenBits` (R115, R116). -/
def bitsRemain (e : Enc) : Bool := decide (totalBits e < e.frameLenBits.toNat)

/-- `repeatCount` is even: bit 0 is 0 (R121, R171 row 7). -/
def repeatEven (e : Enc) : Bool := !e.repeatCount.getLsbD 0

/-- The phases of the encoder (R23). -/
inductive Phase where
  | idle
  | address
  | commReady
  | bit
  | frameComplete
  deriving DecidableEq, Repr

/-- The phase the next handled TICK takes (R23). -/
def phase (e : Enc) : Phase :=
  if e.issued = false then .idle
  else if e.addressSent = false then .address
  else if e.commReady = false then .commReady
  else if bitsRemain e then .bit
  else .frameComplete

/-- A TICK is handled: not a no-op in Idle and not ignored by the guard check (R9). -/
def tickHandled (e : Enc) (now : Ticks) : Bool := e.issued && !inGuardWindow e now

end Sys2Proof.Machine
end

