-- ==== Sys2Proof/Machine/Tick.lean ====
section
/-! DEFINITION. TICK, the encoder's pulse-sequence state machine (R110 to R123). Response always `ACK`. -/
namespace Sys2Proof.Machine

/-- Address phase (R113): start-bit timing, then the gate opens. -/
def addressPhase (c : Config) (s : State) : State :=
  ((s.program (startEntry c s.enc.variant)).openGate).setEnc { s.enc with addressSent := true }

/-- Comm-ready phase (R114): only the flag. -/
def commReadyPhase (s : State) : State := s.setEnc { s.enc with commReady := true }

/-- The position after one more data bit, with the word wrap (R118). The sum is compared as a natural number and stored
in the field's width (R171 rows 5 and 6; assumption log 6). -/
def advanceBit (e : Enc) : Enc :=
  if e.bitIndex.toNat + 1 = wordBits e.variant then { e with bitIndex := 0#5, wordIndex := e.wordIndex + 1#3 }
  else { e with bitIndex := e.bitIndex + 1#5 }

/-- Bit phase (R116): one data symbol, one step of the position. -/
def bitPhase (c : Config) (s : State) : State :=
  (s.program (dataEntry c s.enc.variant (fetchBit c s.enc s.f))).setEnc (advanceBit s.enc)

/-- Repeat policy, Legacy (R120): re-invoke with the current `now` while fewer than 5 were, else Idle. -/
def legacyRepeat (c : Config) (now : Ticks) (s : State) : State :=
  if s.enc.repeatCount.toNat < legacyReinvokes then
    issue c s.enc.currentTemp .legacy now
      (s.setEnc { s.enc with repeatCount := s.enc.repeatCount + 1#4, repeatFlag := !s.enc.repeatFlag })
  else toIdle s

/-- Repeat policy, Modern (R121): after the first frame of a pair the rest timing, and `issuedAtTick` is preserved; after
the second the current `now`; after the tenth frame Idle. -/
def modernRepeat (c : Config) (now : Ticks) (s : State) : State :=
  if s.enc.repeatCount.toNat < modernFrames - 1 then
    if repeatEven s.enc then
      issue c s.enc.currentTemp .modern s.enc.issuedAtTick
        ((s.program (restEntry c)).setEnc { s.enc with repeatCount := s.enc.repeatCount + 1#4 })
    else
      issue c s.enc.currentTemp .modern now (s.setEnc { s.enc with repeatCount := s.enc.repeatCount + 1#4 })
  else toIdle s

/-- The repeat policy of the variant (R120, R121). -/
def repeatPolicy (c : Config) (now : Ticks) (s : State) : State :=
  match s.enc.variant with
  | .legacy => legacyRepeat c now s
  | .modern => modernRepeat c now s

/-- Frame-complete phase (R119): the gate closes, the position returns to 0, then the repeat policy. -/
def frameCompletePhase (c : Config) (now : Ticks) (s : State) : State :=
  repeatPolicy c now (s.closeGate.setEnc { s.enc with bitIndex := 0#5, wordIndex := 0#3 })

/-- TICK over a given configuration (R110): exactly one of six branches. -/
def tickWith (c : Config) (now : Ticks) (s : State) : State :=
  if s.enc.issued = false then s.begin
  else if inGuardWindow s.enc now then s.begin
  else if s.enc.addressSent = false then addressPhase c s.begin
  else if s.enc.commReady = false then commReadyPhase s.begin
  else if bitsRemain s.enc then bitPhase c s.begin
  else frameCompletePhase c now s.begin

/-- The meaning of TICK. -/
def execTick (now : Ticks) (s : State) : Host.Outcome State Fault Refusal := .next (tickWith Config.board now s)

end Sys2Proof.Machine
end

