-- ==== Sys2Proof/Machine/Dispatch.lean ====
section
/-! DEFINITION. exec: one arm per event, each one direct call of its meaning. -/
namespace Sys2Proof.Machine

def exec (i : Instr) (s : State) : Host.Outcome State Fault Refusal :=
  match i with
  | .req v temp now => Sys2Proof.Machine.execReq v temp now s
  | .ledOn => Sys2Proof.Machine.execLedOn s
  | .ledOff => Sys2Proof.Machine.execLedOff s
  | .getSt => Sys2Proof.Machine.execGetSt s
  | .tick now => Sys2Proof.Machine.execTick now s
  | .edge elapsed => Sys2Proof.Machine.execEdge elapsed s

end Sys2Proof.Machine
end

