-- ==== Sys2Proof/Machine/Events.lean ====
section
/-! DEFINITION. The block as the total function of R3: configuration, state and event to the next state, which holds the
event's response and effects; and a sequence of events with all its effects. -/
namespace Sys2Proof.Machine

/-- One event over a given configuration (R3). -/
def eventWith (c : Config) (i : Instr) (s : State) : State :=
  match i with
  | .req v temp now => reqWith c v temp now s
  | .ledOn => ledOnWith s
  | .ledOff => ledOffWith s
  | .getSt => getStWith s
  | .tick now => tickWith c now s
  | .edge e => edgeWith c e s

/-- The state after a sequence of events, each handled before the next (R54, R182). -/
def stateAfter (c : Config) : List Instr → State → State
  | [], s => s
  | i :: is, s => stateAfter c is (eventWith c i s)

/-- The effects of a sequence of events, in order (R3). -/
def effectsOf (c : Config) : List Instr → State → List Effect
  | [], _ => []
  | i :: is, s => (eventWith c i s).effects ++ effectsOf c is (eventWith c i s)

end Sys2Proof.Machine
end

