-- ==== Sys2Proof/Machine/Step.lean ====
section
/-! DEFINITION. One step: take the next event word off the stream, decode it, handle it. -/
namespace Sys2Proof.Machine

/-- With nothing presented the block does nothing: "no counter of its own runs, no timeout fires, no state changes"
(R181). A reserved word answers NAK (R65, R178). Any other word is its event, atomically (R52, R54). -/
def step (s : State) : Host.Outcome State Fault Refusal :=
  match s.stream with
  | [] => .next s
  | w :: rest =>
    match Sys2Proof.decode w with
    | .ok i => exec i { s with stream := rest }
    | .error _ => .next (State.nak { s with stream := rest })

/-- `s` with the event word numbered `w` presented next on the event port, ahead of what was to come (assumption log 1).
An event is one 48-bit word (R60). -/
def State.withFetchWord (s : State) (_nbits w : Nat) : State :=
  { s with stream := BitVec.ofNat 48 w :: s.stream }

end Sys2Proof.Machine
end

