-- ==== Sys2Proof/Machine/Pseudo.lean ====
section
/-! DEFINITION. The pseudo-events (R77), the conversion from programmed symbols to edges (`edgesOf`, 95_test_vectors.md
section 1.3, R77), and the text form of an event (R76). `step` uses none of these. -/
namespace Sys2Proof.Machine

/-- `OFF <L|M> @n` (R77): temperature 0. -/
def pseudoOff (v : Variant) (now : Ticks) : Instr := .req v 0#8 now

/-- `TICKS k @a +d` (R77): k TICKs from time `a` in steps of `d`, modulo 2^32. -/
def pseudoTicks : Nat → Ticks → Ticks → List Instr
  | 0, _, _ => []
  | k + 1, a, d => .tick a :: pseudoTicks k (a + d) d

/-- `EDGES e1, ..., ek` (R77). -/
def pseudoEdges (es : List Ticks) : List Instr := es.map .edge

/-- `c(p) = ceil(RX_PER_TX * p)` in decoder ticks, as a natural number (R77). -/
def ceilTicks (c : Config) (p : Half) : Nat := (c.rxPerTxNum * p.toNat + (c.rxPerTxDen - 1)) / c.rxPerTxDen

/-- The EDGE operand of a converted period: `c(p)` where 32 bits hold it (R6, R77). For a longer one the spec gives no rule
(R77 says modulo 2^32 of TICKS times only, and 91_not_in_source.md N11 says to assume neither saturation nor wrap): it is
the free value `Config.wideInterval` (DESIGN CHOICE, assumption log 11). -/
def edgeOperand (c : Config) (p : Half) : Ticks :=
  if ceilTicks c p < 2 ^ 32 then BitVec.ofNat 32 (ceilTicks c p) else c.wideInterval (ceilTicks c p)

/-- `edgesOf(gap, symbols)`: k values for k symbols (R77): the gap, then the period of every symbol but the last, converted
by `edgeOperand` (where 32 bits do not hold it the operand is the model's choice, assumption log 11). -/
def edgesOf (c : Config) (gap : Ticks) (symbols : List TimingEntry) : List Ticks :=
  match symbols with
  | [] => []
  | e :: es => gap :: (e :: es).dropLast.map (fun x => edgeOperand c x.period)

/-- `SYMBOLS g; (p1,o1), ..., (pk,ok)` (R77): k EDGEs for k symbols. -/
def pseudoSymbols (c : Config) (gap : Ticks) (symbols : List TimingEntry) : List Instr :=
  pseudoEdges (edgesOf c gap symbols)

/-- The symbols a list of effects programs, in order: its `SetInterval` effects (R72). -/
def symbolsIn : List Effect → List TimingEntry
  | [] => []
  | .setInterval p o :: fx => ⟨p, o⟩ :: symbolsIn fx
  | .carrierOn :: fx => symbolsIn fx
  | .carrierOff :: fx => symbolsIn fx
  | .report _ _ _ :: fx => symbolsIn fx

/-- `L` is v = 0, `M` is v = 1 (R76). -/
def variantText : Variant → String
  | .legacy => "L"
  | .modern => "M"

/-- The text form of an event, numbers in decimal (R76). -/
def eventText : Instr → String
  | .req v temp now => "REQ " ++ variantText v ++ ", " ++ toString temp.toNat ++ " @" ++ toString now.toNat
  | .ledOn => "LEDON"
  | .ledOff => "LEDOFF"
  | .getSt => "GETST"
  | .tick now => "TICK @" ++ toString now.toNat
  | .edge e => "EDGE " ++ toString e.toNat

end Sys2Proof.Machine
end

