-- ==== Sys2Proof/Safety.lean ====
section
/-! DEFINITION. What the claims are stated in: the invariants of R36, the bits of a frame (R70, R71), the two sides of the
block (R35, R54), runs of handled TICKs (R9, R124), and the premises of the round trip (R46, R170). A safe run of this block
is any run: it has no fault (R175). -/
namespace Sys2Proof.Machine

/-- What R36 says of a STATE: R36.1, R36.2 and the further invariants, with the field ranges of R15 to R18, R21 and R51 and
the phase order of R12 and R13. R36.3 and R36.4 are about steps; they are statements of their own
(`EdgeResyncRestartsCapture`, `OnlyValidFramesAreReported`). -/
structure State.Inv (s : State) : Prop where
  /-- R15: 0 (after reset only), 48 or 113. -/
  frameLen : s.enc.frameLenBits = 0#8 ∨ s.enc.frameLenBits = 48#8 ∨ s.enc.frameLenBits = 113#8
  /-- R36.1: the frame length is that of the variant while a command is in flight. -/
  frameLenFixed : s.enc.issued = true → s.enc.frameLenBits = frameBits s.enc.variant
  /-- R36.2: the position never passes the frame length. -/
  notPast : s.enc.issued = true → totalBits s.enc ≤ s.enc.frameLenBits.toNat
  /-- R36: Idle means no repeats counted and position 0. -/
  idleClear : s.enc.issued = false →
    s.enc.repeatCount = 0#4 ∧ s.enc.bitIndex = 0#5 ∧ s.enc.wordIndex = 0#3
  /-- R17. -/
  wordIndexLe : s.enc.wordIndex.toNat ≤ 3
  /-- R16: with variant Modern the bit index stays in 0..15. -/
  modernBitIndex : s.enc.variant = .modern → s.enc.bitIndex.toNat ≤ 15
  /-- R18: Legacy uses 0..5, Modern 0..9. -/
  repeatCountLe : s.enc.repeatCount.toNat ≤ match s.enc.variant with | .legacy => 5 | .modern => 9
  /-- R12, R13: the comm-ready phase comes after the address phase, and until both the position is 0. -/
  freshPosition : (s.enc.addressSent = false → s.enc.commReady = false) ∧
    (s.enc.commReady = false → s.enc.bitIndex = 0#5 ∧ s.enc.wordIndex = 0#3)
  /-- R21, R102: the stored temperature is one the variant supports. -/
  tempSupported : s.enc.issued = true → s.enc.currentTemp ∈ tempSet s.enc.variant
  /-- R36: the bits of the accumulating word not yet written are 0. -/
  accTail : ∀ k, k ≤ 31 - s.dec.bitIndex.toNat → s.dec.accumulatingWord.getLsbD k = false

/-- While a command is in flight, `F` holds the frame the ROM gives for its temperature (R70, R71, R102): with variant
Legacy all four words, with variant Modern half-words 0 to 2. -/
def HoldsRomFrame (c : Config) (s : State) : Prop :=
  s.enc.issued = true →
    match s.enc.variant with
    | .legacy =>
      s.f = ⟨c.addrL, (c.codeL s.enc.currentTemp).c1, (c.codeL s.enc.currentTemp).c2, (c.codeL s.enc.currentTemp).ck⟩
    | .modern =>
      s.f.half? 0 = some c.addrM ∧ s.f.half? 1 = some (c.codeM s.enc.currentTemp).c1 ∧
      s.f.half? 2 = some (c.codeM s.enc.currentTemp).ck

/-- Transmitted bit `n` of a frame, read from the 128-bit value of the buffer: `F.w[n div 32][31 - (n mod 32)]` (R70) or
`F.h[n div 16][15 - (n mod 16)]` (R71). -/
def transmittedBit (v : Variant) (b : FrameBuf) (n : Nat) : Bool :=
  match v with
  | .legacy => b.bits.getLsbD (32 * (n / 32) + (31 - n % 32))
  | .modern => b.bits.getLsbD (16 * (n / 16) + (15 - n % 16))

/-- The data symbol of a bit as the effect that programs it (R72, R116). -/
def symbolEffect (e : TimingEntry) : Effect := .setInterval e.period e.onTime

/-- The encoder-side events (R54); EDGE and GETST are the decoder's. -/
def encoderSide : Instr → Bool
  | .req _ _ _ => true
  | .ledOn => true
  | .ledOff => true
  | .tick _ => true
  | .getSt => false
  | .edge _ => false

/-- The encoder's half of the block: `ENC`, `F`, `carrierEnable` (R35). -/
def State.encoderPart (s : State) : Enc × FrameBuf × Bool := (s.enc, s.f, s.carrierEnable)

/-- The decoder's half of the block: `DEC`, `RX`, `LAST` (R35). -/
def State.decoderPart (s : State) : Dec × FrameBuf × Last := (s.dec, s.rx, s.last)

/-- Every TICK of the list is a handled one (R9) when they are presented one after the other. -/
def AllHandled (c : Config) : List Ticks → State → Prop
  | [], _ => True
  | now :: rest, s => tickHandled s.enc now = true ∧ AllHandled c rest (tickWith c now s)

/-- R46 but for its bound on the zero class, with the operand width of R6: what the Legacy timing entries must satisfy for the
block's own decoder to read them, `k = RX_PER_TX` being the ratio `rxPerTxNum / rxPerTxDen`. -/
structure DecodableTiming (c : Config) : Prop where
  ratio : c.ratioPositive = true
  startLong : 400 * c.rxPerTxDen < c.rxPerTxNum * c.tt.legacyStart.period.toNat
  startFits : ceilTicks c c.tt.legacyStart.period < 2 ^ 32
  oneAbove : 160 * c.rxPerTxDen < c.rxPerTxNum * c.tt.legacyOne.period.toNat
  oneBelow : c.rxPerTxNum * c.tt.legacyOne.period.toNat ≤ 400 * c.rxPerTxDen
  zeroBelow : c.rxPerTxNum * c.tt.legacyZero.period.toNat ≤ 160 * c.rxPerTxDen

/-- R46 whole: as `DecodableTiming`, and the zero period lies above 80, "to fall in the source's defined zero class rather
than in the unclassified short range that also decodes as zero". -/
structure SourceClassTiming (c : Config) : Prop extends DecodableTiming c where
  zeroAbove : 80 * c.rxPerTxDen < c.rxPerTxNum * c.tt.legacyZero.period.toNat

/-- R162, R170: the 15 words `CODE_L[16..30].c1` are distinct. The check `Config.codesDistinct` is this
(`codesDistinct_iff` in Laws/Pseudo.lean). -/
def DistinctCodes (c : Config) : Prop :=
  ∀ t ∈ tempRange, ∀ u ∈ tempRange, (c.codeL t).c1 = (c.codeL u).c1 → t = u

end Sys2Proof.Machine
end

