-- ==== Sys2Proof/Certificates/Slice0/Obligations.lean ====
section
/-! DEFINITION. The statements for the provers. A statement about `exec` is about the machine at hand, whose configuration
`Config.board` is a constant without a body: nothing of its contents can be used, so it holds for every configuration. A
statement about runs quantifies over the configuration (R3). `State` has three fields of the model's own (`stream`,
`response`, `effects`; assumption logs 1 and 2); the rest is the state of R10. -/
open Sys2Proof Sys2Proof.Machine

/-! ## Encodings -/

/-- The example words of R76 decode to the events they stand for. -/
def Obligations.DecodesSpecWords : Prop :=
  decode 0x2018000003E8#48 = .ok (.req .legacy 24#8 1000#32) ∧
  decode 0x3018000003E8#48 = .ok (.req .modern 24#8 1000#32) ∧
  decode 0x201F00000000#48 = .ok (.req .legacy 31#8 0#32) ∧
  decode 0x400000000000#48 = .ok .ledOn ∧
  decode 0x600000000000#48 = .ok .ledOff ∧
  decode 0x800000000000#48 = .ok .getSt ∧
  decode 0xA0000000044C#48 = .ok (.tick 1100#32) ∧
  decode 0xC00000000208#48 = .ok (.edge 520#32)

/-- Every event decodes from its own encoding, operands whole (R60 to R63). -/
def Obligations.DecodeOfEncodeIsIdentity : Prop :=
  ∀ i : Instr, i.wellFormed = true → decode (encode i) = .ok i

/-- A word that decodes is the encoding of what it decodes to: exactly one spelling for each event (R64). -/
def Obligations.EachEventHasOneSpelling : Prop :=
  ∀ (w : EventWord) (i : Instr), decode w = .ok i → encode i = w

/-- R62: a word is a row's event iff `W & mask == match`, and the operands are its fields (R61). -/
def Obligations.DecodeFollowsOpcodeMap : Prop :=
  ∀ w : EventWord,
    (w &&& 0xEF0000000000#48 = 0x200000000000#48 ↔
      decode w = .ok (.req (if w.getLsbD 44 then .modern else .legacy) (w.extractLsb' 32 8) (w.extractLsb' 0 32))) ∧
    (w &&& 0xFFFFFFFFFFFF#48 = 0x400000000000#48 ↔ decode w = .ok .ledOn) ∧
    (w &&& 0xFFFFFFFFFFFF#48 = 0x600000000000#48 ↔ decode w = .ok .ledOff) ∧
    (w &&& 0xFFFFFFFFFFFF#48 = 0x800000000000#48 ↔ decode w = .ok .getSt) ∧
    (w &&& 0xFFFF00000000#48 = 0xA00000000000#48 ↔ decode w = .ok (.tick (w.extractLsb' 0 32))) ∧
    (w &&& 0xFFFF00000000#48 = 0xC00000000000#48 ↔ decode w = .ok (.edge (w.extractLsb' 0 32)))

/-- The decoder refuses exactly the words whose fields are ill formed (R65). -/
def Obligations.DecoderAcceptsWellFormedFieldsOnly : Prop :=
  ∀ w : EventWord, (∃ i, decode w = .ok i) ↔ (fieldsOf w).wellFormed = true

/-- R66, R67, R68: codes and places in the response word. -/
def Obligations.ResponseWordFields : Prop :=
  ∀ r : Response,
    (responseWord r).extractLsb' 0 11 = r.payload ∧
    (responseWord r).extractLsb' 11 3 = 0#3 ∧
    (responseWord r).extractLsb' 14 2 =
      match r.code with
      | .ack => 0b00#2
      | .nak => 0b01#2
      | .ok => 0b10#2
      | .fail => 0b11#2

/-- R69: kinds and payloads in the effect word. -/
def Obligations.EffectWordFields : Prop :=
  (∀ p o : Half, (effectWord (.setInterval p o)).extractLsb' 32 4 = 1#4 ∧
    (effectWord (.setInterval p o)).extractLsb' 16 16 = p ∧ (effectWord (.setInterval p o)).extractLsb' 0 16 = o) ∧
  effectWord .carrierOn = 0x200000000#36 ∧
  effectWord .carrierOff = 0x300000000#36 ∧
  (∀ (t : Byte) (f : BitVec 2) (b : Bool),
    (effectWord (.report t f b)).extractLsb' 32 4 = 4#4 ∧ (effectWord (.report t f b)).extractLsb' 11 21 = 0#21 ∧
    (effectWord (.report t f b)).getLsbD 10 = b ∧ (effectWord (.report t f b)).extractLsb' 8 2 = f ∧
    (effectWord (.report t f b)).extractLsb' 0 8 = t)

/-! ## The frame buffers -/

/-- R41, R42: both views name bits of the one 128-bit buffer, `F.w[i] = F[32i+31:32i]` and `F.h[j] = F[16j+15:16j]`; there
is no other word or half-word; and a write through a view changes exactly those bits, seen through either view. -/
def Obligations.ViewsOverlayOneBuffer : Prop :=
  (∀ (b : FrameBuf) (i : Nat), b.word? i = if i < 4 then some (b.bits.extractLsb' (32 * i) 32) else none) ∧
  (∀ (b : FrameBuf) (j : Nat), b.half? j = if j < 8 then some (b.bits.extractLsb' (16 * j) 16) else none) ∧
  (∀ (b : FrameBuf) (i : Nat) (v : Word), i < 4 → ∀ k, k < 128 →
    (b.setWord i v).bits.getLsbD k = if 32 * i ≤ k ∧ k < 32 * i + 32 then v.getLsbD (k - 32 * i) else b.bits.getLsbD k) ∧
  (∀ (b : FrameBuf) (j : Nat) (v : Half), j < 8 → ∀ k, k < 128 →
    (b.setHalf j v).bits.getLsbD k = if 16 * j ≤ k ∧ k < 16 * j + 16 then v.getLsbD (k - 16 * j) else b.bits.getLsbD k)

/-! ## The step -/

/-- When the next word presented is an event, `step` takes it off the stream and is `exec` of it (R52, R54). -/
def Obligations.StepRunsTheDecodedEvent : Prop :=
  ∀ (s : State) (w : EventWord) (rest : List EventWord) (i : Instr),
    s.stream = w :: rest → decode w = .ok i → step s = exec i { s with stream := rest }

/-- R178: a reserved word answers NAK, with no state change and no effect. Reserved: op 0 or 7, `rsv` non-zero, or a field
non-zero that the event's row says must be 0 (R65). -/
def Obligations.ReservedWordAnswersNak : Prop :=
  ∀ (s : State) (w : EventWord) (rest : List EventWord), s.stream = w :: rest →
    (w.extractLsb' 45 3 = 0#3 ∨ w.extractLsb' 45 3 = 7#3 ∨ w.extractLsb' 40 4 ≠ 0#4 ∨
      (w.extractLsb' 45 3 ≠ 1#3 ∧ (w.extractLsb' 44 1 ≠ 0#1 ∨ w.extractLsb' 32 8 ≠ 0#8)) ∨
      ((w.extractLsb' 45 3 = 2#3 ∨ w.extractLsb' 45 3 = 3#3 ∨ w.extractLsb' 45 3 = 4#3) ∧ w.extractLsb' 0 32 ≠ 0#32)) →
    step s = .next { s with stream := rest, response := some ⟨.nak, 0#11⟩, effects := [] }

/-- R181: with no event presented nothing changes. -/
def Obligations.NoEventNoChange : Prop := ∀ s : State, s.stream = [] → step s = .next s

/-- R175: every event word in every state yields a next state and a response. -/
def Obligations.EveryEventWordCompletes : Prop :=
  ∀ (s : State) (w : EventWord) (rest : List EventWord), s.stream = w :: rest →
    ∃ t r, step s = .next t ∧ t.response = some r ∧ t.stream = rest

/-- The model's way in: a word placed with `withFetchWord` is the event the very next step handles (assumption log 1). -/
def Obligations.PresentedWordRunsNext : Prop :=
  ∀ (i : Instr) (s : State), step (s.withFetchWord 48 (encode i).toNat) = exec i s

/-! ## Reset and invariants -/

/-- R37, R200, R201: every bit is 0 and no effect was emitted. -/
def Obligations.ResetIsAllZero : Prop :=
  State.reset.enc = ⟨false, false, false, .legacy, 0#8, 0#5, 0#3, 0#4, false, 0#32, 0#8⟩ ∧
  State.reset.f = ⟨0#32, 0#32, 0#32, 0#32⟩ ∧ State.reset.carrierEnable = false ∧
  State.reset.dec = ⟨0#32, 0#5, 0#2, 0#32⟩ ∧ State.reset.rx = ⟨0#32, 0#32, 0#32, 0#32⟩ ∧
  State.reset.last = ⟨0#8, 0#2, false⟩ ∧ State.reset.effects = []

/-- The state invariants of R36 (`State.Inv`: R36.1, R36.2 and the further ones) hold after reset. -/
def Obligations.ResetMeetsInvariant : Prop := State.reset.Inv

/-- The state invariants of R36 (`State.Inv`: R36.1, R36.2 and the further ones, with the field ranges and the phase order of
R12 and R13) are kept by every step, from every state that meets them. -/
def Obligations.StepKeepsInvariant : Prop := ∀ s t : State, s.Inv → step s = .next t → t.Inv

/-- After reset no command is in flight, so the frame invariant holds. -/
def Obligations.ResetHoldsRomFrame : Prop := HoldsRomFrame Config.board State.reset

/-- Every step keeps it: while a command is in flight `F` holds its frame from the ROM (R56, R102, R122). -/
def Obligations.StepKeepsRomFrame : Prop :=
  ∀ s t : State, HoldsRomFrame Config.board s → step s = .next t → HoldsRomFrame Config.board t

/-! ## REQ -/

/-- A Legacy request with a supported temperature (0, 5, 16 to 30), in any state, idle or in flight: it restarts the
sequencer, loads the frame and answers OK; nothing else changes (R91 to R96, R102). -/
def Obligations.ReqLegacyIssuesCommand : Prop :=
  ∀ (temp : Byte) (now : Ticks) (s : State), (temp = 0#8 ∨ temp = 5#8 ∨ (16 ≤ temp.toNat ∧ temp.toNat ≤ 30)) →
    exec (.req .legacy temp now) s = .next { s with
      enc := { issued := true, addressSent := false, commReady := false, variant := .legacy, frameLenBits := 113#8,
               bitIndex := 0#5, wordIndex := 0#3, repeatCount := 0#4, repeatFlag := s.enc.repeatFlag,
               issuedAtTick := now, currentTemp := temp }
      f := ⟨Config.board.addrL, (Config.board.codeL temp).c1, (Config.board.codeL temp).c2, (Config.board.codeL temp).ck⟩
      response := some ⟨.ok, 0#11⟩
      effects := [] }

/-- A Modern request with a supported temperature (0, 16 to 30; not 5): as Legacy, with half-words 0 to 2 of the buffer
loaded and half-words 3 to 7 unchanged (R91 to R96, R102). -/
def Obligations.ReqModernIssuesCommand : Prop :=
  ∀ (temp : Byte) (now : Ticks) (s : State), (temp = 0#8 ∨ (16 ≤ temp.toNat ∧ temp.toNat ≤ 30)) →
    ∃ f : FrameBuf,
      exec (.req .modern temp now) s = .next { s with
        enc := { issued := true, addressSent := false, commReady := false, variant := .modern, frameLenBits := 48#8,
                 bitIndex := 0#5, wordIndex := 0#3, repeatCount := 0#4, repeatFlag := s.enc.repeatFlag,
                 issuedAtTick := now, currentTemp := temp }
        f := f
        response := some ⟨.ok, 0#11⟩
        effects := [] } ∧
      f.half? 0 = some Config.board.addrM ∧ f.half? 1 = some (Config.board.codeM temp).c1 ∧
      f.half? 2 = some (Config.board.codeM temp).ck ∧ ∀ j, 3 ≤ j → f.half? j = s.f.half? j

/-- R97: an unsupported temperature fails; the whole state but the response is as before, with no effect. -/
def Obligations.ReqUnsupportedFails : Prop :=
  ∀ (v : Variant) (temp : Byte) (now : Ticks) (s : State),
    ¬(temp = 0#8 ∨ (temp = 5#8 ∧ v = .legacy) ∨ (16 ≤ temp.toNat ∧ temp.toNat ≤ 30)) →
    exec (.req v temp now) s = .next { s with response := some ⟨.fail, 0#11⟩, effects := [] }

/-! ## LEDON, LEDOFF, GETST -/

/-- R99. -/
def Obligations.LedOnOpensGate : Prop :=
  ∀ s : State, exec .ledOn s = .next { s with
    carrierEnable := true, response := some ⟨.ack, 0#11⟩, effects := [.carrierOn] }

/-- R100. -/
def Obligations.LedOffClosesGate : Prop :=
  ∀ s : State, exec .ledOff s = .next { s with
    carrierEnable := false, response := some ⟨.ack, 0#11⟩, effects := [.carrierOff] }

/-- R101, R68: GETST answers ACK with the three fields of `LAST` in their places, writes nothing and emits nothing. -/
def Obligations.GetStAnswersLastDecoded : Prop :=
  ∀ s : State, ∃ r : Response,
    exec .getSt s = .next { s with response := some r, effects := [] } ∧
    (responseWord r).extractLsb' 14 2 = 0b00#2 ∧ (responseWord r).extractLsb' 11 3 = 0#3 ∧
    (responseWord r).getLsbD 10 = s.last.blowerOn ∧ (responseWord r).extractLsb' 8 2 = s.last.fanIndex ∧
    (responseWord r).extractLsb' 0 8 = s.last.temperature

/-! ## TICK -/

/-- R111: a TICK in Idle is a no-op, answered ACK. -/
def Obligations.TickInIdleDoesNothing : Prop :=
  ∀ (now : Ticks) (s : State), s.enc.issued = false →
    exec (.tick now) s = .next { s with response := some ⟨.ack, 0#11⟩, effects := [] }

/-- R112: within 100 ticks of the issue, modulo 2^32, a TICK is ignored, in every phase. -/
def Obligations.TickInGuardWindowIgnored : Prop :=
  ∀ (now : Ticks) (s : State), s.enc.issued = true →
    (now.toNat + (2 ^ 32 - s.enc.issuedAtTick.toNat)) % 2 ^ 32 < 100 →
    exec (.tick now) s = .next { s with response := some ⟨.ack, 0#11⟩, effects := [] }

/-- R113: the address phase programs the start symbol and then opens the gate. -/
def Obligations.TickAddressPhase : Prop :=
  ∀ (now : Ticks) (s : State), s.enc.issued = true → 100 ≤ (now - s.enc.issuedAtTick).toNat →
    s.enc.addressSent = false →
    exec (.tick now) s = .next { s with
      enc := { s.enc with addressSent := true }
      carrierEnable := true
      response := some ⟨.ack, 0#11⟩
      effects :=
        match s.enc.variant with
        | .legacy => [.setInterval Config.board.tt.legacyStart.period Config.board.tt.legacyStart.onTime, .carrierOn]
        | .modern => [.setInterval Config.board.tt.modernStart.period Config.board.tt.modernStart.onTime, .carrierOn] }

/-- R114: the comm-ready phase sets `commReady` and programs nothing. -/
def Obligations.TickCommReadyPhase : Prop :=
  ∀ (now : Ticks) (s : State), s.enc.issued = true → 100 ≤ (now - s.enc.issuedAtTick).toNat →
    s.enc.addressSent = true → s.enc.commReady = false →
    exec (.tick now) s = .next { s with
      enc := { s.enc with commReady := true }, response := some ⟨.ack, 0#11⟩, effects := [] }

/-- R116 to R118, Legacy: at position n = 32 * wordIndex + bitIndex below the frame length (n < 128: the buffer has 128
bits, R51) the bit phase programs the symbol of transmitted bit n and the position becomes n + 1, word and bit apart. -/
def Obligations.TickLegacyBitPhase : Prop :=
  ∀ (now : Ticks) (s : State) (n : Nat), s.enc.issued = true → 100 ≤ (now - s.enc.issuedAtTick).toNat →
    s.enc.addressSent = true → s.enc.commReady = true → s.enc.variant = .legacy →
    n = 32 * s.enc.wordIndex.toNat + s.enc.bitIndex.toNat → n < s.enc.frameLenBits.toNat → n < 128 →
    exec (.tick now) s = .next { s with
      enc := { s.enc with wordIndex := BitVec.ofNat 3 ((n + 1) / 32), bitIndex := BitVec.ofNat 5 ((n + 1) % 32) }
      response := some ⟨.ack, 0#11⟩
      effects :=
        if s.f.bits.getLsbD (32 * (n / 32) + (31 - n % 32)) then
          [.setInterval Config.board.tt.legacyOne.period Config.board.tt.legacyOne.onTime]
        else [.setInterval Config.board.tt.legacyZero.period Config.board.tt.legacyZero.onTime] }

/-- R116 to R118, Modern: as Legacy with 16-bit half-words; the bit index is in its Modern range 0..15 (R16). A word index
of 7, in no state a run reaches, is stored modulo 8 when it advances (assumption log 6). -/
def Obligations.TickModernBitPhase : Prop :=
  ∀ (now : Ticks) (s : State) (n : Nat), s.enc.issued = true → 100 ≤ (now - s.enc.issuedAtTick).toNat →
    s.enc.addressSent = true → s.enc.commReady = true → s.enc.variant = .modern → s.enc.bitIndex.toNat ≤ 15 →
    n = 16 * s.enc.wordIndex.toNat + s.enc.bitIndex.toNat → n < s.enc.frameLenBits.toNat →
    exec (.tick now) s = .next { s with
      enc := { s.enc with wordIndex := BitVec.ofNat 3 ((n + 1) / 16), bitIndex := BitVec.ofNat 5 ((n + 1) % 16) }
      response := some ⟨.ack, 0#11⟩
      effects :=
        if s.f.bits.getLsbD (16 * (n / 16) + (15 - n % 16)) then
          [.setInterval Config.board.tt.modernOne.period Config.board.tt.modernOne.onTime]
        else [.setInterval Config.board.tt.modernZero.period Config.board.tt.modernZero.onTime] }

/-- R116, R118, in EVERY state of the bit phase, those no run reaches included: one symbol, `one` or `zero` of the variant,
is programmed, and the position advances by one bit with the word wrap, in the fields' widths. Which of the two symbols is
not said here: where the position points outside the buffer it is the free value of assumption log 4, and the width of the
stored position is that of log 6. -/
def Obligations.TickBitPhaseProgramsOneSymbol : Prop :=
  ∀ (now : Ticks) (s : State), s.enc.issued = true → 100 ≤ (now - s.enc.issuedAtTick).toNat →
    s.enc.addressSent = true → s.enc.commReady = true → totalBits s.enc < s.enc.frameLenBits.toNat →
    ∃ (b : Bool) (w : BitVec 3) (k : BitVec 5),
      exec (.tick now) s = .next { s with
        enc := { s.enc with wordIndex := w, bitIndex := k }
        response := some ⟨.ack, 0#11⟩
        effects := [symbolEffect (dataEntry Config.board s.enc.variant b)] } ∧
      if s.enc.bitIndex.toNat + 1 = (match s.enc.variant with | .legacy => 32 | .modern => 16) then
        k = 0#5 ∧ w = s.enc.wordIndex + 1#3
      else k = s.enc.bitIndex + 1#5 ∧ w = s.enc.wordIndex

/-- R119, R120, R122, R123, Legacy: the frame-complete phase closes the gate and returns the position to 0; with fewer than
5 re-invocations behind it the command is re-invoked at the current `now`, the flag inverted and the frame reloaded, else
the encoder returns to Idle. -/
def Obligations.TickLegacyFrameComplete : Prop :=
  ∀ (now : Ticks) (s : State), s.enc.issued = true → 100 ≤ (now - s.enc.issuedAtTick).toNat →
    s.enc.addressSent = true → s.enc.commReady = true → s.enc.variant = .legacy →
    s.enc.frameLenBits.toNat ≤ 32 * s.enc.wordIndex.toNat + s.enc.bitIndex.toNat →
    exec (.tick now) s = .next
      (if s.enc.repeatCount.toNat < 5 then { s with
        enc := { s.enc with
          addressSent := false, commReady := false, frameLenBits := 113#8, bitIndex := 0#5, wordIndex := 0#3,
          repeatCount := s.enc.repeatCount + 1#4, repeatFlag := !s.enc.repeatFlag, issuedAtTick := now }
        f := ⟨Config.board.addrL, (Config.board.codeL s.enc.currentTemp).c1, (Config.board.codeL s.enc.currentTemp).c2,
              (Config.board.codeL s.enc.currentTemp).ck⟩
        carrierEnable := false
        response := some ⟨.ack, 0#11⟩
        effects := [.carrierOff] }
      else { s with
        enc := { s.enc with issued := false, bitIndex := 0#5, wordIndex := 0#3, repeatCount := 0#4 }
        carrierEnable := false
        response := some ⟨.ack, 0#11⟩
        effects := [.carrierOff] })

/-- R119, R121, R123, Modern: after the first frame of a pair (even count below 9) the rest timing follows the CarrierOff
and `issuedAtTick` stays; after the second (odd count below 9) it becomes `now` and no rest is programmed; from count 9 on
the encoder returns to Idle. A re-invocation reloads half-words 0 to 2; `repeatFlag` is not touched. -/
def Obligations.TickModernFrameComplete : Prop :=
  ∀ (now : Ticks) (s : State), s.enc.issued = true → 100 ≤ (now - s.enc.issuedAtTick).toNat →
    s.enc.addressSent = true → s.enc.commReady = true → s.enc.variant = .modern →
    s.enc.frameLenBits.toNat ≤ 16 * s.enc.wordIndex.toNat + s.enc.bitIndex.toNat →
    if s.enc.repeatCount.toNat < 9 then
      ∃ f : FrameBuf,
        exec (.tick now) s = .next { s with
          enc := { s.enc with
            addressSent := false, commReady := false, frameLenBits := 48#8, bitIndex := 0#5, wordIndex := 0#3,
            repeatCount := s.enc.repeatCount + 1#4,
            issuedAtTick := if s.enc.repeatCount.toNat % 2 = 0 then s.enc.issuedAtTick else now }
          f := f
          carrierEnable := false
          response := some ⟨.ack, 0#11⟩
          effects :=
            if s.enc.repeatCount.toNat % 2 = 0 then
              [.carrierOff, .setInterval Config.board.tt.modernRest.period Config.board.tt.modernRest.onTime]
            else [.carrierOff] } ∧
        f.half? 0 = some Config.board.addrM ∧ f.half? 1 = some (Config.board.codeM s.enc.currentTemp).c1 ∧
        f.half? 2 = some (Config.board.codeM s.enc.currentTemp).ck ∧ ∀ j, 3 ≤ j → f.half? j = s.f.half? j
    else
      exec (.tick now) s = .next { s with
        enc := { s.enc with issued := false, bitIndex := 0#5, wordIndex := 0#3, repeatCount := 0#4 }
        carrierEnable := false
        response := some ⟨.ack, 0#11⟩
        effects := [.carrierOff] }

/-! ## EDGE -/

/-- R143, R141: an interval above 400 counts the edge and drops the partial word and the slot; nothing else happens, even
at edge count 114. -/
def Obligations.EdgeResyncRestartsCapture : Prop :=
  ∀ (e : Ticks) (s : State), 400 < e.toNat →
    exec (.edge e) s = .next { s with
      dec := { accumulatingWord := 0#32, bitIndex := 0#5, wordSlot := 0#2, edgeCount := s.dec.edgeCount + 1#32 }
      response := some ⟨.ack, 0#11⟩
      effects := [] }

/-- R142, R145: with the word not full and the count not at 114, a data interval writes one bit, 1 above 160 and 0 up to
160, at position 31 - bitIndex, keeps the other 31, and moves to the next. -/
def Obligations.EdgeAccumulatesBit : Prop :=
  ∀ (e : Ticks) (s : State), e.toNat ≤ 400 → s.dec.bitIndex.toNat < 31 → s.dec.edgeCount + 1#32 ≠ 114#32 →
    ∃ a : Word,
      exec (.edge e) s = .next { s with
        dec := { accumulatingWord := a, bitIndex := BitVec.ofNat 5 (s.dec.bitIndex.toNat + 1),
                 wordSlot := s.dec.wordSlot, edgeCount := s.dec.edgeCount + 1#32 }
        response := some ⟨.ack, 0#11⟩
        effects := [] } ∧
      ∀ k, k < 32 → a.getLsbD k =
        if k = 31 - s.dec.bitIndex.toNat then decide (160 < e.toNat) else s.dec.accumulatingWord.getLsbD k

/-- R146, R147: when the bit index reaches 32 or the count reaches 114 (or both), and slot 3 is not the one being filled,
the word goes to its slot of `RX`, the other slots stay, the accumulator and bit index are cleared and the slot advances. -/
def Obligations.EdgeFinalisesWord : Prop :=
  ∀ (e : Ticks) (s : State), e.toNat ≤ 400 →
    (s.dec.bitIndex.toNat = 31 ∨ s.dec.edgeCount + 1#32 = 114#32) → s.dec.wordSlot.toNat < 3 →
    ∃ rx : FrameBuf, ∃ a : Word,
      exec (.edge e) s = .next { s with
        dec := { accumulatingWord := 0#32, bitIndex := 0#5, wordSlot := BitVec.ofNat 2 (s.dec.wordSlot.toNat + 1),
                 edgeCount := s.dec.edgeCount + 1#32 }
        rx := rx
        response := some ⟨.ack, 0#11⟩
        effects := [] } ∧
      (∀ k, k < 32 → a.getLsbD k =
        if k = 31 - s.dec.bitIndex.toNat then decide (160 < e.toNat) else s.dec.accumulatingWord.getLsbD k) ∧
      ∀ j, rx.word? j = if j = s.dec.wordSlot.toNat then some a else s.rx.word? j

/-- R148, R161, R166 to R168: when slot 3 is finalised the frame is handed off, the position returns to (0, 0, 0), and the
frame is interpreted iff its address word is `ADDR_L`: then `LAST` is overwritten and one Report with the same values is
emitted; otherwise neither. -/
def Obligations.EdgeHandsOffFrame : Prop :=
  ∀ (e : Ticks) (s : State), e.toNat ≤ 400 →
    (s.dec.bitIndex.toNat = 31 ∨ s.dec.edgeCount + 1#32 = 114#32) → s.dec.wordSlot.toNat = 3 →
    ∃ (a : Word) (l : Last),
      exec (.edge e) s = .next { s with
        dec := { accumulatingWord := 0#32, bitIndex := 0#5, wordSlot := 0#2, edgeCount := 0#32 }
        rx := { s.rx with w3 := a }
        last := if s.rx.w0 = Config.board.addrL then l else s.last
        response := some ⟨.ack, 0#11⟩
        effects := if s.rx.w0 = Config.board.addrL then [.report l.temperature l.fanIndex l.blowerOn] else [] } ∧
      (∀ k, k < 32 → a.getLsbD k =
        if k = 31 - s.dec.bitIndex.toNat then decide (160 < e.toNat) else s.dec.accumulatingWord.getLsbD k) ∧
      l = ⟨decodeTemp Config.board s.rx.w1, decodeFan Config.board s.rx.w2, decodeBlower Config.board s.rx.w2⟩

/-- R162: the temperature is the lowest t of 16..30 whose code is the whole word; -1 (0xFF) if there is none. -/
def Obligations.TemperatureIsFirstMatchingCode : Prop :=
  ∀ (c : Config) (w : Word),
    (∀ t : Byte, 16 ≤ t.toNat → t.toNat ≤ 30 → (c.codeL t).c1 = w →
      (∀ u : Byte, 16 ≤ u.toNat → u.toNat < t.toNat → (c.codeL u).c1 ≠ w) → decodeTemp c w = t) ∧
    ((∀ t : Byte, 16 ≤ t.toNat → t.toNat ≤ 30 → (c.codeL t).c1 ≠ w) → decodeTemp c w = 0xFF#8)

/-- R163, R164: the fan index is the first of the three patterns the masked word equals, 3 if none; the blower is on iff
the shifted, masked sub-field is strictly greater, unsigned, than the threshold. -/
def Obligations.FanAndBlowerFields : Prop :=
  ∀ (c : Config) (w : Word),
    (w &&& c.fanMask = c.fanPattern 0 → decodeFan c w = 0#2) ∧
    (w &&& c.fanMask ≠ c.fanPattern 0 → w &&& c.fanMask = c.fanPattern 1 → decodeFan c w = 1#2) ∧
    (w &&& c.fanMask ≠ c.fanPattern 0 → w &&& c.fanMask ≠ c.fanPattern 1 → w &&& c.fanMask = c.fanPattern 2 →
      decodeFan c w = 2#2) ∧
    (w &&& c.fanMask ≠ c.fanPattern 0 → w &&& c.fanMask ≠ c.fanPattern 1 → w &&& c.fanMask ≠ c.fanPattern 2 →
      decodeFan c w = 3#2) ∧
    (decodeBlower c w = true ↔
      c.blowerThreshold.toNat < w.toNat / 2 ^ c.blowerShift.toNat &&& c.blowerFieldMask.toNat)

/-- R142: the four classes of an interval with their bits; 400 is a one and 401 a resync, 160 a zero and 161 a one. -/
def Obligations.IntervalClasses : Prop :=
  ∀ e : Ticks,
    (401 ≤ e.toNat → classifyEdge e = .resync ∧ edgeBit (classifyEdge e) = none) ∧
    (161 ≤ e.toNat ∧ e.toNat ≤ 400 → classifyEdge e = .one ∧ edgeBit (classifyEdge e) = some true) ∧
    (81 ≤ e.toNat ∧ e.toNat ≤ 160 → classifyEdge e = .zero ∧ edgeBit (classifyEdge e) = some false) ∧
    (e.toNat ≤ 80 → classifyEdge e = .short ∧ edgeBit (classifyEdge e) = some false)

/-- R144: an interval of 80 ticks or less does exactly what one of 81 to 160 does, answered ACK: in a word that is not
finalised it writes a 0 at position 31 - bitIndex, and the bit index moves on. -/
def Obligations.ShortIntervalIsZeroBit : Prop :=
  ∀ (e e' : Ticks) (s : State), e.toNat ≤ 80 → 81 ≤ e'.toNat → e'.toNat ≤ 160 →
    ∃ t, exec (.edge e) s = .next t ∧ exec (.edge e') s = .next t ∧ t.response = some ⟨.ack, 0#11⟩ ∧
      (s.dec.bitIndex.toNat < 31 → s.dec.edgeCount + 1#32 ≠ 114#32 →
        t.dec.accumulatingWord.getLsbD (31 - s.dec.bitIndex.toNat) = false ∧
        t.dec.bitIndex.toNat = s.dec.bitIndex.toNat + 1 ∧ t.effects = [])

/-! ## Rules over all events -/

/-- R35: REQ, LEDON, LEDOFF and TICK write only the encoder's half, EDGE only the decoder's, GETST neither; and no event
reads the other side's half: what it makes of its own half, answers and emits depends on its own half alone. No event
touches what is still to be presented. -/
def Obligations.NeitherSideTouchesTheOther : Prop :=
  (∀ (i : Instr) (s : State), ∃ t : State, exec i s = .next t ∧ t.stream = s.stream ∧
    (encoderSide i = true → t.decoderPart = s.decoderPart) ∧
    (encoderSide i = false → t.encoderPart = s.encoderPart) ∧
    (i = .getSt → t.decoderPart = s.decoderPart)) ∧
  (∀ (i : Instr) (s s' : State), encoderSide i = true → s.encoderPart = s'.encoderPart →
    ∃ t t' : State, exec i s = .next t ∧ exec i s' = .next t' ∧
      t.encoderPart = t'.encoderPart ∧ t.response = t'.response ∧ t.effects = t'.effects) ∧
  (∀ (i : Instr) (s s' : State), encoderSide i = false → s.decoderPart = s'.decoderPart →
    ∃ t t' : State, exec i s = .next t ∧ exec i s' = .next t' ∧
      t.decoderPart = t'.decoderPart ∧ t.response = t'.response ∧ t.effects = t'.effects)

/-- R54: an encoder-side event and a decoder-side event commute: the same final block, and each gives the same response
and the same effects in either order. -/
def Obligations.EncoderAndDecoderCommute : Prop :=
  ∀ (i j : Instr) (s : State), encoderSide i = true → encoderSide j = false →
    ∃ a ab b ba : State,
      exec i s = .next a ∧ exec j a = .next ab ∧ exec j s = .next b ∧ exec i b = .next ba ∧
      ab.encoderPart = ba.encoderPart ∧ ab.decoderPart = ba.decoderPart ∧
      a.response = ba.response ∧ a.effects = ba.effects ∧ b.response = ab.response ∧ b.effects = ab.effects

/-- R22: after every event the gate register is the level of the last gate effect the event emitted, and unchanged if it
emitted none. -/
def Obligations.GateRegisterFollowsEffects : Prop :=
  ∀ (i : Instr) (s t : State), exec i s = .next t →
    t.carrierEnable = match (t.effects.filterMap gateLevel).getLast? with
      | some level => level
      | none => s.carrierEnable

/-- R186: at most one SetInterval per event, with a pair read from the timing table, and none but from a handled TICK that
is not the comm-ready phase. -/
def Obligations.SetIntervalComesFromTimingTable : Prop :=
  ∀ (i : Instr) (s t : State), exec i s = .next t →
    (symbolsIn t.effects).length ≤ 1 ∧
    ∀ e ∈ symbolsIn t.effects,
      (∃ now, i = .tick now ∧ tickHandled s.enc now = true ∧ phase s.enc ≠ .commReady) ∧
      (e = Config.board.tt.legacyStart ∨ e = Config.board.tt.legacyOne ∨ e = Config.board.tt.legacyZero ∨
       e = Config.board.tt.modernStart ∨ e = Config.board.tt.modernOne ∨ e = Config.board.tt.modernZero ∨
       e = Config.board.tt.modernRest)

/-- R19: no event reads the repeat flag: from states that differ in it alone, the next states differ in it at most, and
one flips it iff the other does. -/
def Obligations.RepeatFlagIsReadByNothing : Prop :=
  ∀ (i : Instr) (s : State) (b : Bool), ∃ t u : State,
    exec i s = .next t ∧ exec i { s with enc := { s.enc with repeatFlag := b } } = .next u ∧
    u = { t with enc := { t.enc with repeatFlag := u.enc.repeatFlag } } ∧
    (t.enc.repeatFlag = s.enc.repeatFlag ↔ u.enc.repeatFlag = b)

/-- R169: no event reads `RX.w[3]`: from states that differ in it alone, the next states differ in it at most. -/
def Obligations.ChecksumIsReadByNothing : Prop :=
  ∀ (i : Instr) (s : State) (w : Word), ∃ t u : State,
    exec i s = .next t ∧ exec i { s with rx := { s.rx with w3 := w } } = .next u ∧
    u = { t with rx := { t.rx with w3 := u.rx.w3 } }

/-- R11: a command begins only with a successful REQ and ends only with a TICK, the one after its last frame. -/
def Obligations.CommandBeginsAndEndsAsTheRulesSay : Prop :=
  ∀ (i : Instr) (s t : State), exec i s = .next t →
    (s.enc.issued = false → t.enc.issued = true →
      ∃ v temp now, i = .req v temp now ∧ temp ∈ tempSet v ∧ t.response = some ⟨.ok, 0#11⟩) ∧
    (s.enc.issued = true → t.enc.issued = false →
      ∃ now, i = .tick now ∧ phase s.enc = .frameComplete ∧
        (match s.enc.variant with | .legacy => 5 | .modern => 9) ≤ s.enc.repeatCount.toNat)

/-- R36.4, R146, R148, R161, R166: `LAST` changes, or a Report is emitted, only at the EDGE that finalises the word of slot 3,
and so hands off the frame, of a frame whose first word is `ADDR_L`; the Report carries the new `LAST`. -/
def Obligations.OnlyValidFramesAreReported : Prop :=
  ∀ (i : Instr) (s t : State), exec i s = .next t →
    (t.last ≠ s.last ∨ ∃ x y z, Effect.report x y z ∈ t.effects) →
    s.rx.w0 = Config.board.addrL ∧ s.dec.wordSlot = 3#2 ∧ (∃ e : Ticks, i = .edge e ∧ e.toNat ≤ 400) ∧
    (s.dec.bitIndex.toNat = 31 ∨ s.dec.edgeCount + 1#32 = 114#32) ∧
    t.effects = [.report t.last.temperature t.last.fanIndex t.last.blowerOn]

/-! ## Whole frames and whole commands, for every configuration -/

/-- R72, R124, R125: from a state just issued, frame length + 3 TICKs outside the guard window emit the start symbol,
CarrierOn, the symbols of the frame's bits in order, and CarrierOff, followed by the rest symbol after the first frame of a
Modern pair and by nothing else. -/
def Obligations.FrameIsSentWhole : Prop :=
  ∀ (c : Config) (s : State) (nows : List Ticks),
    s.enc.issued = true → s.enc.addressSent = false → s.enc.commReady = false → s.enc.bitIndex = 0#5 →
    s.enc.wordIndex = 0#3 → s.enc.frameLenBits = frameBits s.enc.variant →
    nows.length = s.enc.frameLenBits.toNat + 3 →
    (∀ now ∈ nows, 100 ≤ (now - s.enc.issuedAtTick).toNat) →
    effectsOf c (nows.map .tick) s =
      [symbolEffect (startEntry c s.enc.variant), .carrierOn] ++
      (List.range s.enc.frameLenBits.toNat).map
        (fun n => symbolEffect (dataEntry c s.enc.variant (transmittedBit s.enc.variant s.f n))) ++
      [.carrierOff] ++
      (if s.enc.variant = .modern ∧ s.enc.repeatCount.toNat < 9 ∧ s.enc.repeatCount.toNat % 2 = 0 then
        [symbolEffect c.tt.modernRest] else [])

/-- R125, R196, R120, R121: a command takes exactly 696 (Legacy) or 510 (Modern) handled TICKs. Handled TICKs after a
successful REQ, in any state, are never more than that; the command is in flight until the last of them and Idle after it;
then 684 or 495 SetInterval, and 6 or 10 each of CarrierOn and CarrierOff, have been emitted. Runs of every length up to
the whole exist. -/
def Obligations.CommandTakesItsExactTicks : Prop :=
  ∀ (c : Config) (s : State) (v : Variant) (temp : Byte) (now : Ticks), temp ∈ tempSet v →
    let ticks := match v with | .legacy => 696 | .modern => 510
    let symbols := match v with | .legacy => 684 | .modern => 495
    let frames := match v with | .legacy => 6 | .modern => 10
    let start := eventWith c (.req v temp now) s
    (∀ nows : List Ticks, AllHandled c nows start →
      nows.length ≤ ticks ∧
      (stateAfter c (nows.map .tick) start).enc.issued = decide (nows.length < ticks) ∧
      (nows.length = ticks →
        (symbolsIn (effectsOf c (nows.map .tick) start)).length = symbols ∧
        (effectsOf c (nows.map .tick) start).count .carrierOn = frames ∧
        (effectsOf c (nows.map .tick) start).count .carrierOff = frames)) ∧
    (∀ k, k ≤ ticks → ∃ nows : List Ticks, nows.length = k ∧ AllHandled c nows start)

/-- R149: a clean Legacy frame. From edge count 0, two intervals above 400 and then 112 data intervals fill `RX` with the
112 bits, most significant first, the low 16 bits of word 3 zero; the frame is handed off at the last edge, and reported iff
its first word is `ADDR_L`. -/
def Obligations.CleanLegacyFrameIsAssembled : Prop :=
  ∀ (c : Config) (s : State) (gap start : Ticks) (data : List Ticks),
    s.dec.edgeCount = 0#32 → 400 < gap.toNat → 400 < start.toNat → data.length = 112 →
    (∀ e ∈ data, e.toNat ≤ 400) →
    let t := stateAfter c ((gap :: start :: data).map .edge) s
    t.dec = ⟨0#32, 0#5, 0#2, 0#32⟩ ∧
    (∀ n (h : n < data.length), transmittedBit .legacy t.rx n = decide (160 < data[n].toNat)) ∧
    (∀ n, 112 ≤ n → n < 128 → transmittedBit .legacy t.rx n = false) ∧
    (if t.rx.w0 = c.addrL then
      t.last = decodeFrame c t.rx ∧
        effectsOf c ((gap :: start :: data).map .edge) s = [.report t.last.temperature t.last.fanIndex t.last.blowerOn]
    else t.last = s.last ∧ effectsOf c ((gap :: start :: data).map .edge) s = [])

/-- R46, R77, R142: which class a converted period falls in, for every configuration with a positive ratio and every period
whose conversion fits the operand; and so, under R46, each Legacy symbol falls in the class of its role. A period that does
not fit is left out: its operand is the free value of assumption log 11. -/
def Obligations.ConvertedPeriodsFallInTheirClasses : Prop :=
  (∀ (c : Config) (p : Half), c.ratioPositive = true → ceilTicks c p < 2 ^ 32 →
    (classifyEdge (edgeOperand c p) = .resync ↔ 400 * c.rxPerTxDen < c.rxPerTxNum * p.toNat) ∧
    (classifyEdge (edgeOperand c p) = .one ↔
      160 * c.rxPerTxDen < c.rxPerTxNum * p.toNat ∧ c.rxPerTxNum * p.toNat ≤ 400 * c.rxPerTxDen) ∧
    (classifyEdge (edgeOperand c p) = .zero ↔
      80 * c.rxPerTxDen < c.rxPerTxNum * p.toNat ∧ c.rxPerTxNum * p.toNat ≤ 160 * c.rxPerTxDen) ∧
    (classifyEdge (edgeOperand c p) = .short ↔ c.rxPerTxNum * p.toNat ≤ 80 * c.rxPerTxDen)) ∧
  (∀ c : Config, SourceClassTiming c →
    classifyEdge (edgeOperand c c.tt.legacyStart.period) = .resync ∧
    classifyEdge (edgeOperand c c.tt.legacyOne.period) = .one ∧
    classifyEdge (edgeOperand c c.tt.legacyZero.period) = .zero)

/-- R170: the round trip. For a configuration whose Legacy timing the decoder can read (R46; the zero
period may lie in the short range, which decodes alike) and whose 15 codes are
distinct, a Legacy request for t in 16..30, its first frame sent by 116 TICKs outside the guard window, the symbols
converted to edges (`edgesOf`, R77) and presented to the decoder at edge count 0, yields one Report: temperature t, and the
fan index and blower of the encoder's own second payload word. -/
def Obligations.LegacyRoundTrip : Prop :=
  ∀ (c : Config) (s : State) (t : Byte) (now gap : Ticks) (nows : List Ticks),
    DecodableTiming c → DistinctCodes c → t ∈ tempRange → s.dec.edgeCount = 0#32 → 400 < gap.toNat →
    nows.length = 116 → (∀ n ∈ nows, 100 ≤ (n - now).toNat) →
    let sent := .req .legacy t now :: nows.map .tick
    let received := pseudoSymbols c gap (symbolsIn (effectsOf c sent s))
    let l : Last := ⟨t, decodeFan c (c.codeL t).c2, decodeBlower c (c.codeL t).c2⟩
    (stateAfter c received (stateAfter c sent s)).last = l ∧
    effectsOf c received (stateAfter c sent s) = [.report l.temperature l.fanIndex l.blowerOn]
end

