-- ==== Sys2Proof/Laws/Decode.lean ====
section
/-! SUPPORT. The bits of an event word (R60), said once. -/
namespace Sys2Proof

/-- Which field a bit of the event word belongs to (R60). -/
theorem getLsbD_wordOf (f : EventFields) (i : Nat) :
    (wordOf f).getLsbD i =
      if i < 32 then f.t32.getLsbD i
      else if i < 40 then f.temp.getLsbD (i - 32)
      else if i < 44 then f.rsv.getLsbD (i - 40)
      else if i < 45 then f.v.getLsbD (i - 44)
      else f.op.getLsbD (i - 45) := by
  unfold wordOf
  have h1 := BitVec.getLsbD_append (x := f.op ++ f.v ++ f.rsv ++ f.temp) (y := f.t32) (i := i)
  have h2 := BitVec.getLsbD_append (x := f.op ++ f.v ++ f.rsv) (y := f.temp) (i := i - 32)
  have h3 := BitVec.getLsbD_append (x := f.op ++ f.v) (y := f.rsv) (i := i - 32 - 8)
  have h4 := BitVec.getLsbD_append (x := f.op) (y := f.v) (i := i - 32 - 8 - 4)
  refine h1.trans ?_
  rw [h2, h3, h4]
  simp only [Nat.sub_sub, show (i - 32 < 8) = (i < 40 ∨ i < 32) by ext; omega,
    show (i - (32 + 8) < 4) = (i < 44 ∨ i < 40) by ext; omega,
    show (i - (32 + 8 + 4) < 1) = (i < 45 ∨ i < 44) by ext; omega]
  split_ifs <;> first | rfl | omega

end Sys2Proof
end

