-- ==== Sys2Proof/Laws/State.lean ====
section
/-! SUPPORT. One lemma per field per state write, true by rfl, so that no later proof unfolds a record update. -/
namespace Sys2Proof.Machine

/-! `setEnc` -/

@[simp] theorem State.setEnc_enc (s : State) (e : Enc) : (s.setEnc e).enc = e := rfl
@[simp] theorem State.setEnc_f (s : State) (e : Enc) : (s.setEnc e).f = s.f := rfl
@[simp] theorem State.setEnc_carrierEnable (s : State) (e : Enc) : (s.setEnc e).carrierEnable = s.carrierEnable := rfl
@[simp] theorem State.setEnc_dec (s : State) (e : Enc) : (s.setEnc e).dec = s.dec := rfl
@[simp] theorem State.setEnc_rx (s : State) (e : Enc) : (s.setEnc e).rx = s.rx := rfl
@[simp] theorem State.setEnc_last (s : State) (e : Enc) : (s.setEnc e).last = s.last := rfl
@[simp] theorem State.setEnc_stream (s : State) (e : Enc) : (s.setEnc e).stream = s.stream := rfl
@[simp] theorem State.setEnc_response (s : State) (e : Enc) : (s.setEnc e).response = s.response := rfl
@[simp] theorem State.setEnc_effects (s : State) (e : Enc) : (s.setEnc e).effects = s.effects := rfl

/-! `setF` -/

@[simp] theorem State.setF_enc (s : State) (b : FrameBuf) : (s.setF b).enc = s.enc := rfl
@[simp] theorem State.setF_f (s : State) (b : FrameBuf) : (s.setF b).f = b := rfl
@[simp] theorem State.setF_carrierEnable (s : State) (b : FrameBuf) : (s.setF b).carrierEnable = s.carrierEnable := rfl
@[simp] theorem State.setF_dec (s : State) (b : FrameBuf) : (s.setF b).dec = s.dec := rfl
@[simp] theorem State.setF_rx (s : State) (b : FrameBuf) : (s.setF b).rx = s.rx := rfl
@[simp] theorem State.setF_last (s : State) (b : FrameBuf) : (s.setF b).last = s.last := rfl
@[simp] theorem State.setF_stream (s : State) (b : FrameBuf) : (s.setF b).stream = s.stream := rfl
@[simp] theorem State.setF_response (s : State) (b : FrameBuf) : (s.setF b).response = s.response := rfl
@[simp] theorem State.setF_effects (s : State) (b : FrameBuf) : (s.setF b).effects = s.effects := rfl

/-! `setCarrier` -/

@[simp] theorem State.setCarrier_enc (s : State) (b : Bool) : (s.setCarrier b).enc = s.enc := rfl
@[simp] theorem State.setCarrier_f (s : State) (b : Bool) : (s.setCarrier b).f = s.f := rfl
@[simp] theorem State.setCarrier_carrierEnable (s : State) (b : Bool) : (s.setCarrier b).carrierEnable = b := rfl
@[simp] theorem State.setCarrier_dec (s : State) (b : Bool) : (s.setCarrier b).dec = s.dec := rfl
@[simp] theorem State.setCarrier_rx (s : State) (b : Bool) : (s.setCarrier b).rx = s.rx := rfl
@[simp] theorem State.setCarrier_last (s : State) (b : Bool) : (s.setCarrier b).last = s.last := rfl
@[simp] theorem State.setCarrier_stream (s : State) (b : Bool) : (s.setCarrier b).stream = s.stream := rfl
@[simp] theorem State.setCarrier_response (s : State) (b : Bool) : (s.setCarrier b).response = s.response := rfl
@[simp] theorem State.setCarrier_effects (s : State) (b : Bool) : (s.setCarrier b).effects = s.effects := rfl

/-! `setDec` -/

@[simp] theorem State.setDec_enc (s : State) (d : Dec) : (s.setDec d).enc = s.enc := rfl
@[simp] theorem State.setDec_f (s : State) (d : Dec) : (s.setDec d).f = s.f := rfl
@[simp] theorem State.setDec_carrierEnable (s : State) (d : Dec) : (s.setDec d).carrierEnable = s.carrierEnable := rfl
@[simp] theorem State.setDec_dec (s : State) (d : Dec) : (s.setDec d).dec = d := rfl
@[simp] theorem State.setDec_rx (s : State) (d : Dec) : (s.setDec d).rx = s.rx := rfl
@[simp] theorem State.setDec_last (s : State) (d : Dec) : (s.setDec d).last = s.last := rfl
@[simp] theorem State.setDec_stream (s : State) (d : Dec) : (s.setDec d).stream = s.stream := rfl
@[simp] theorem State.setDec_response (s : State) (d : Dec) : (s.setDec d).response = s.response := rfl
@[simp] theorem State.setDec_effects (s : State) (d : Dec) : (s.setDec d).effects = s.effects := rfl

/-! `setRx` -/

@[simp] theorem State.setRx_enc (s : State) (b : FrameBuf) : (s.setRx b).enc = s.enc := rfl
@[simp] theorem State.setRx_f (s : State) (b : FrameBuf) : (s.setRx b).f = s.f := rfl
@[simp] theorem State.setRx_carrierEnable (s : State) (b : FrameBuf) : (s.setRx b).carrierEnable = s.carrierEnable := rfl
@[simp] theorem State.setRx_dec (s : State) (b : FrameBuf) : (s.setRx b).dec = s.dec := rfl
@[simp] theorem State.setRx_rx (s : State) (b : FrameBuf) : (s.setRx b).rx = b := rfl
@[simp] theorem State.setRx_last (s : State) (b : FrameBuf) : (s.setRx b).last = s.last := rfl
@[simp] theorem State.setRx_stream (s : State) (b : FrameBuf) : (s.setRx b).stream = s.stream := rfl
@[simp] theorem State.setRx_response (s : State) (b : FrameBuf) : (s.setRx b).response = s.response := rfl
@[simp] theorem State.setRx_effects (s : State) (b : FrameBuf) : (s.setRx b).effects = s.effects := rfl

/-! `setLast` -/

@[simp] theorem State.setLast_enc (s : State) (l : Last) : (s.setLast l).enc = s.enc := rfl
@[simp] theorem State.setLast_f (s : State) (l : Last) : (s.setLast l).f = s.f := rfl
@[simp] theorem State.setLast_carrierEnable (s : State) (l : Last) : (s.setLast l).carrierEnable = s.carrierEnable := rfl
@[simp] theorem State.setLast_dec (s : State) (l : Last) : (s.setLast l).dec = s.dec := rfl
@[simp] theorem State.setLast_rx (s : State) (l : Last) : (s.setLast l).rx = s.rx := rfl
@[simp] theorem State.setLast_last (s : State) (l : Last) : (s.setLast l).last = l := rfl
@[simp] theorem State.setLast_stream (s : State) (l : Last) : (s.setLast l).stream = s.stream := rfl
@[simp] theorem State.setLast_response (s : State) (l : Last) : (s.setLast l).response = s.response := rfl
@[simp] theorem State.setLast_effects (s : State) (l : Last) : (s.setLast l).effects = s.effects := rfl

/-! `respond` -/

@[simp] theorem State.respond_enc (s : State) (code : RspCode) (p : BitVec 11) : (s.respond code p).enc = s.enc := rfl
@[simp] theorem State.respond_f (s : State) (code : RspCode) (p : BitVec 11) : (s.respond code p).f = s.f := rfl
@[simp] theorem State.respond_carrierEnable (s : State) (code : RspCode) (p : BitVec 11) : (s.respond code p).carrierEnable = s.carrierEnable := rfl
@[simp] theorem State.respond_dec (s : State) (code : RspCode) (p : BitVec 11) : (s.respond code p).dec = s.dec := rfl
@[simp] theorem State.respond_rx (s : State) (code : RspCode) (p : BitVec 11) : (s.respond code p).rx = s.rx := rfl
@[simp] theorem State.respond_last (s : State) (code : RspCode) (p : BitVec 11) : (s.respond code p).last = s.last := rfl
@[simp] theorem State.respond_stream (s : State) (code : RspCode) (p : BitVec 11) : (s.respond code p).stream = s.stream := rfl
@[simp] theorem State.respond_response (s : State) (code : RspCode) (p : BitVec 11) : (s.respond code p).response = some ⟨code, p⟩ := rfl
@[simp] theorem State.respond_effects (s : State) (code : RspCode) (p : BitVec 11) : (s.respond code p).effects = s.effects := rfl

/-! `emit` -/

@[simp] theorem State.emit_enc (s : State) (e : Effect) : (s.emit e).enc = s.enc := rfl
@[simp] theorem State.emit_f (s : State) (e : Effect) : (s.emit e).f = s.f := rfl
@[simp] theorem State.emit_carrierEnable (s : State) (e : Effect) : (s.emit e).carrierEnable = s.carrierEnable := rfl
@[simp] theorem State.emit_dec (s : State) (e : Effect) : (s.emit e).dec = s.dec := rfl
@[simp] theorem State.emit_rx (s : State) (e : Effect) : (s.emit e).rx = s.rx := rfl
@[simp] theorem State.emit_last (s : State) (e : Effect) : (s.emit e).last = s.last := rfl
@[simp] theorem State.emit_stream (s : State) (e : Effect) : (s.emit e).stream = s.stream := rfl
@[simp] theorem State.emit_response (s : State) (e : Effect) : (s.emit e).response = s.response := rfl
@[simp] theorem State.emit_effects (s : State) (e : Effect) : (s.emit e).effects = s.effects ++ [e] := rfl

/-! `begin` -/

@[simp] theorem State.begin_enc (s : State) : s.begin.enc = s.enc := rfl
@[simp] theorem State.begin_f (s : State) : s.begin.f = s.f := rfl
@[simp] theorem State.begin_carrierEnable (s : State) : s.begin.carrierEnable = s.carrierEnable := rfl
@[simp] theorem State.begin_dec (s : State) : s.begin.dec = s.dec := rfl
@[simp] theorem State.begin_rx (s : State) : s.begin.rx = s.rx := rfl
@[simp] theorem State.begin_last (s : State) : s.begin.last = s.last := rfl
@[simp] theorem State.begin_stream (s : State) : s.begin.stream = s.stream := rfl
@[simp] theorem State.begin_response (s : State) : s.begin.response = some ⟨.ack, 0#11⟩ := rfl
@[simp] theorem State.begin_effects (s : State) : s.begin.effects = [] := rfl

/-! `nak` -/

@[simp] theorem State.nak_enc (s : State) : s.nak.enc = s.enc := rfl
@[simp] theorem State.nak_f (s : State) : s.nak.f = s.f := rfl
@[simp] theorem State.nak_carrierEnable (s : State) : s.nak.carrierEnable = s.carrierEnable := rfl
@[simp] theorem State.nak_dec (s : State) : s.nak.dec = s.dec := rfl
@[simp] theorem State.nak_rx (s : State) : s.nak.rx = s.rx := rfl
@[simp] theorem State.nak_last (s : State) : s.nak.last = s.last := rfl
@[simp] theorem State.nak_stream (s : State) : s.nak.stream = s.stream := rfl
@[simp] theorem State.nak_response (s : State) : s.nak.response = some ⟨.nak, 0#11⟩ := rfl
@[simp] theorem State.nak_effects (s : State) : s.nak.effects = [] := rfl

/-! `program` -/

@[simp] theorem State.program_enc (s : State) (e : TimingEntry) : (s.program e).enc = s.enc := rfl
@[simp] theorem State.program_f (s : State) (e : TimingEntry) : (s.program e).f = s.f := rfl
@[simp] theorem State.program_carrierEnable (s : State) (e : TimingEntry) : (s.program e).carrierEnable = s.carrierEnable := rfl
@[simp] theorem State.program_dec (s : State) (e : TimingEntry) : (s.program e).dec = s.dec := rfl
@[simp] theorem State.program_rx (s : State) (e : TimingEntry) : (s.program e).rx = s.rx := rfl
@[simp] theorem State.program_last (s : State) (e : TimingEntry) : (s.program e).last = s.last := rfl
@[simp] theorem State.program_stream (s : State) (e : TimingEntry) : (s.program e).stream = s.stream := rfl
@[simp] theorem State.program_response (s : State) (e : TimingEntry) : (s.program e).response = s.response := rfl
@[simp] theorem State.program_effects (s : State) (e : TimingEntry) : (s.program e).effects = s.effects ++ [.setInterval e.period e.onTime] := rfl

/-! `openGate` -/

@[simp] theorem State.openGate_enc (s : State) : s.openGate.enc = s.enc := rfl
@[simp] theorem State.openGate_f (s : State) : s.openGate.f = s.f := rfl
@[simp] theorem State.openGate_carrierEnable (s : State) : s.openGate.carrierEnable = true := rfl
@[simp] theorem State.openGate_dec (s : State) : s.openGate.dec = s.dec := rfl
@[simp] theorem State.openGate_rx (s : State) : s.openGate.rx = s.rx := rfl
@[simp] theorem State.openGate_last (s : State) : s.openGate.last = s.last := rfl
@[simp] theorem State.openGate_stream (s : State) : s.openGate.stream = s.stream := rfl
@[simp] theorem State.openGate_response (s : State) : s.openGate.response = s.response := rfl
@[simp] theorem State.openGate_effects (s : State) : s.openGate.effects = s.effects ++ [.carrierOn] := rfl

/-! `closeGate` -/

@[simp] theorem State.closeGate_enc (s : State) : s.closeGate.enc = s.enc := rfl
@[simp] theorem State.closeGate_f (s : State) : s.closeGate.f = s.f := rfl
@[simp] theorem State.closeGate_carrierEnable (s : State) : s.closeGate.carrierEnable = false := rfl
@[simp] theorem State.closeGate_dec (s : State) : s.closeGate.dec = s.dec := rfl
@[simp] theorem State.closeGate_rx (s : State) : s.closeGate.rx = s.rx := rfl
@[simp] theorem State.closeGate_last (s : State) : s.closeGate.last = s.last := rfl
@[simp] theorem State.closeGate_stream (s : State) : s.closeGate.stream = s.stream := rfl
@[simp] theorem State.closeGate_response (s : State) : s.closeGate.response = s.response := rfl
@[simp] theorem State.closeGate_effects (s : State) : s.closeGate.effects = s.effects ++ [.carrierOff] := rfl

end Sys2Proof.Machine
end

