-- ==== Sys2Proof/Laws/Ops.lean ====
section
/-! SUPPORT. What each shared operation does, said once: the buffer views, `loadFrame`, `issue`, the phases of TICK, the
parts of EDGE, and the case analyses of TICK and EDGE. Cite these instead of unfolding the operations. -/
namespace Sys2Proof.Machine

/-! ### Halves of a word -/

theorem lowHalf_append (h v : Half) : lowHalf (h ++ v) = v := by
  unfold lowHalf
  ext i hi
  have := BitVec.getLsbD_append (x := h) (y := v) (i := i)
  simp_all [BitVec.getLsbD_eq_getElem]

theorem highHalf_append (h v : Half) : highHalf (h ++ v) = h := by
  unfold highHalf
  ext i hi
  have := BitVec.getLsbD_append (x := h) (y := v) (i := 16 + i)
  simp_all [BitVec.getLsbD_eq_getElem]

@[simp] theorem lowHalf_withLowHalf (w : Word) (v : Half) : lowHalf (withLowHalf w v) = v := lowHalf_append _ _

@[simp] theorem highHalf_withLowHalf (w : Word) (v : Half) : highHalf (withLowHalf w v) = highHalf w :=
  highHalf_append _ _

@[simp] theorem highHalf_withHighHalf (w : Word) (v : Half) : highHalf (withHighHalf w v) = v := highHalf_append _ _

@[simp] theorem lowHalf_withHighHalf (w : Word) (v : Half) : lowHalf (withHighHalf w v) = lowHalf w :=
  lowHalf_append _ _

/-! ### Writes through the word view -/

/-- The buffer has `FRAME_WORDS` words and no other (R4, R41). -/
theorem FrameBuf.isSome_word? (b : FrameBuf) (i : Nat) : (b.word? i).isSome = true ↔ i < frameWords := by
  match i with
  | 0 | 1 | 2 | 3 => simp [FrameBuf.word?, frameWords]
  | i + 4 => simp [FrameBuf.word?, frameWords]

theorem FrameBuf.word?_setWord_same (b : FrameBuf) (i : Nat) (v : Word) (hi : i < 4) :
    (b.setWord i v).word? i = some v := by
  match i, hi with
  | 0, _ | 1, _ | 2, _ | 3, _ => rfl

theorem FrameBuf.word?_setWord_other (b : FrameBuf) (i j : Nat) (v : Word) (hij : j ≠ i) :
    (b.setWord i v).word? j = b.word? j := by
  unfold FrameBuf.setWord
  split <;> unfold FrameBuf.word? <;> split <;> simp_all

/-- Legacy frame population: every word is rewritten (R70, R102). -/
@[simp] theorem loadFrame_legacy (c : Config) (temp : Byte) (b : FrameBuf) :
    loadFrame c temp .legacy b = ⟨c.addrL, (c.codeL temp).c1, (c.codeL temp).c2, (c.codeL temp).ck⟩ := rfl

/-- Modern frame population, word by word (R71, R102). -/
theorem loadFrame_modern (c : Config) (temp : Byte) (b : FrameBuf) :
    loadFrame c temp .modern b =
      ⟨withHighHalf (withLowHalf b.w0 c.addrM) (c.codeM temp).c1, withLowHalf b.w1 (c.codeM temp).ck, b.w2, b.w3⟩ := rfl

/-- Modern frame population through the half-word view (R71). -/
theorem loadFrame_modern_halves (c : Config) (temp : Byte) (b : FrameBuf) :
    (loadFrame c temp .modern b).half? 0 = some c.addrM ∧
    (loadFrame c temp .modern b).half? 1 = some (c.codeM temp).c1 ∧
    (loadFrame c temp .modern b).half? 2 = some (c.codeM temp).ck := by
  simp [loadFrame_modern, FrameBuf.half?]

/-- "F.h[3..7] unchanged" (R102). -/
theorem loadFrame_modern_rest (c : Config) (temp : Byte) (b : FrameBuf) (j : Nat) (hj : 3 ≤ j) :
    (loadFrame c temp .modern b).half? j = b.half? j := by
  match j, hj with
  | 3, _ | 4, _ | 5, _ | 6, _ | 7, _ => simp [loadFrame_modern, FrameBuf.half?]
  | j + 8, _ => rfl

/-! ### issue and toIdle -/

/-- Everything `issue` writes (R92). -/
theorem issue_eq (c : Config) (temp : Byte) (v : Variant) (tick : Ticks) (s : State) :
    issue c temp v tick s =
      { s with
        f := loadFrame c temp v s.f
        enc := { s.enc with
          issued := true, addressSent := false, commReady := false, variant := v,
          frameLenBits := frameBits v, issuedAtTick := tick, currentTemp := temp } } := rfl

/-- Everything `toIdle` writes (R123). -/
theorem toIdle_eq (s : State) :
    toIdle s = { s with enc := { s.enc with issued := false, repeatCount := 0#4 } } := rfl

/-! ### The phases of TICK -/

theorem addressPhase_eq (c : Config) (s : State) :
    addressPhase c s =
      { s with
        enc := { s.enc with addressSent := true }
        carrierEnable := true
        effects := s.effects ++
          [.setInterval (startEntry c s.enc.variant).period (startEntry c s.enc.variant).onTime] ++ [.carrierOn] } := rfl

theorem commReadyPhase_eq (s : State) : commReadyPhase s = { s with enc := { s.enc with commReady := true } } := rfl

theorem bitPhase_eq (c : Config) (s : State) :
    bitPhase c s =
      { s with
        enc := advanceBit s.enc
        effects := s.effects ++
          [.setInterval (dataEntry c s.enc.variant (fetchBit c s.enc s.f)).period
            (dataEntry c s.enc.variant (fetchBit c s.enc s.f)).onTime] } := rfl

/-- The position advances and nothing else of `ENC` changes (R118). -/
theorem advanceBit_eq (e : Enc) :
    advanceBit e = { e with bitIndex := (advanceBit e).bitIndex, wordIndex := (advanceBit e).wordIndex } := by
  unfold advanceBit
  split <;> rfl

/-- Everything the frame-complete phase can do (R119 to R123): Legacy re-invokes or ends; Modern re-invokes after the
first frame of a pair, re-invokes after the second, or ends. -/
theorem frameCompletePhase_cases (c : Config) (now : Ticks) (s : State) :
    (s.enc.variant = .legacy ∧ s.enc.repeatCount.toNat < 5 ∧
      frameCompletePhase c now s = { s with
        enc := { s.enc with
          issued := true, addressSent := false, commReady := false, variant := .legacy, frameLenBits := 113#8,
          bitIndex := 0#5, wordIndex := 0#3, repeatCount := s.enc.repeatCount + 1#4,
          repeatFlag := !s.enc.repeatFlag, issuedAtTick := now }
        f := loadFrame c s.enc.currentTemp .legacy s.f
        carrierEnable := false
        effects := s.effects ++ [.carrierOff] }) ∨
    (s.enc.variant = .modern ∧ s.enc.repeatCount.toNat < 9 ∧ repeatEven s.enc = true ∧
      frameCompletePhase c now s = { s with
        enc := { s.enc with
          issued := true, addressSent := false, commReady := false, variant := .modern, frameLenBits := 48#8,
          bitIndex := 0#5, wordIndex := 0#3, repeatCount := s.enc.repeatCount + 1#4 }
        f := loadFrame c s.enc.currentTemp .modern s.f
        carrierEnable := false
        effects := s.effects ++ [.carrierOff] ++ [.setInterval (restEntry c).period (restEntry c).onTime] }) ∨
    (s.enc.variant = .modern ∧ s.enc.repeatCount.toNat < 9 ∧ repeatEven s.enc = false ∧
      frameCompletePhase c now s = { s with
        enc := { s.enc with
          issued := true, addressSent := false, commReady := false, variant := .modern, frameLenBits := 48#8,
          bitIndex := 0#5, wordIndex := 0#3, repeatCount := s.enc.repeatCount + 1#4, issuedAtTick := now }
        f := loadFrame c s.enc.currentTemp .modern s.f
        carrierEnable := false
        effects := s.effects ++ [.carrierOff] }) ∨
    ((match s.enc.variant with | .legacy => 5 | .modern => 9) ≤ s.enc.repeatCount.toNat ∧
      frameCompletePhase c now s = { s with
        enc := { s.enc with issued := false, bitIndex := 0#5, wordIndex := 0#3, repeatCount := 0#4 }
        carrierEnable := false
        effects := s.effects ++ [.carrierOff] }) := by
  unfold frameCompletePhase repeatPolicy
  simp only [State.setEnc_enc]
  cases hv : s.enc.variant
  · simp only [legacyRepeat, State.setEnc_enc, legacyReinvokes]
    by_cases hr : s.enc.repeatCount.toNat < 5
    · simp only [hr, if_true]
      exact .inl ⟨trivial, trivial, rfl⟩
    · simp only [hr, if_false]
      refine .inr (.inr (.inr ⟨by omega, ?_⟩))
      simp only [toIdle_eq, State.setEnc]
      rfl
  · simp only [modernRepeat, State.setEnc_enc, modernFrames, Nat.add_one_sub_one]
    by_cases hr : s.enc.repeatCount.toNat < 9
    · simp only [hr, if_true]
      by_cases he : repeatEven s.enc = true
      · have he' : repeatEven { s.enc with bitIndex := 0#5, wordIndex := 0#3 } = true := he
        simp only [hv] at he'
        simp only [he', if_true]
        exact .inr (.inl ⟨trivial, trivial, he, rfl⟩)
      · have he' : ¬ repeatEven { s.enc with bitIndex := 0#5, wordIndex := 0#3 } = true := he
        simp only [hv] at he'
        simp only [he']
        exact .inr (.inr (.inl ⟨trivial, trivial, by simpa using he, rfl⟩))
    · simp only [hr, if_false]
      refine .inr (.inr (.inr ⟨by omega, ?_⟩))
      simp only [toIdle_eq, State.setEnc]
      rfl

/-- TICK takes exactly one of six branches (R110). -/
theorem tickWith_cases (c : Config) (now : Ticks) (s : State) :
    (s.enc.issued = false ∧ tickWith c now s = s.begin) ∨
    (s.enc.issued = true ∧ inGuardWindow s.enc now = true ∧ tickWith c now s = s.begin) ∨
    (tickHandled s.enc now = true ∧ s.enc.addressSent = false ∧ tickWith c now s = addressPhase c s.begin) ∨
    (tickHandled s.enc now = true ∧ s.enc.addressSent = true ∧ s.enc.commReady = false ∧
      tickWith c now s = commReadyPhase s.begin) ∨
    (tickHandled s.enc now = true ∧ s.enc.addressSent = true ∧ s.enc.commReady = true ∧ bitsRemain s.enc = true ∧
      tickWith c now s = bitPhase c s.begin) ∨
    (tickHandled s.enc now = true ∧ s.enc.addressSent = true ∧ s.enc.commReady = true ∧ bitsRemain s.enc = false ∧
      tickWith c now s = frameCompletePhase c now s.begin) := by
  unfold tickWith tickHandled
  cases s.enc.issued <;> cases inGuardWindow s.enc now <;> cases s.enc.addressSent <;> cases s.enc.commReady <;>
    cases bitsRemain s.enc <;> simp

/-! ### The parts of EDGE -/

/-- `interpret` writes `LAST` and emits one report, or does nothing (R160, R167). -/
theorem interpret_eq (c : Config) (s : State) :
    interpret c s =
      if s.rx.w0 = c.addrL then
        { s with
          last := decodeFrame c s.rx
          effects := s.effects ++
            [.report (decodeTemp c s.rx.w1) (decodeFan c s.rx.w2) (decodeBlower c s.rx.w2)] }
      else s := rfl

/-- The known codes' temperatures, by number (R94, R162). -/
theorem mem_tempRange (t : Byte) : t ∈ tempRange ↔ 16 ≤ t.toNat ∧ t.toNat ≤ 30 := by
  constructor
  · intro h
    obtain ⟨n, hn, rfl⟩ := List.mem_map.1 h
    have := List.mem_range'_1.1 hn
    simp only [decTempMin, decTempMax] at this
    rw [BitVec.toNat_ofNat, Nat.mod_eq_of_lt (by omega)]
    omega
  · rintro ⟨h1, h2⟩
    refine List.mem_map.2 ⟨t.toNat, List.mem_range'_1.2 ?_, BitVec.ofNat_toNat _ _⟩
    simp only [decTempMin, decTempMax]
    omega

/-- The fan index, pattern by pattern (R163). -/
theorem decodeFan_eq (c : Config) (w : Word) :
    decodeFan c w =
      if w &&& c.fanMask = c.fanPattern 0 then 0#2
      else if w &&& c.fanMask = c.fanPattern 1 then 1#2
      else if w &&& c.fanMask = c.fanPattern 2 then 2#2
      else fanNone := by
  have h : List.finRange fanPatterns = [0, 1, 2] := rfl
  unfold decodeFan
  rw [h]
  simp only [List.find?_cons, List.find?_nil, BEq.beq]
  split_ifs <;> simp_all

/-- The class of an interval by its number of ticks (R142). -/
theorem edgeBit_classifyEdge (e : Ticks) :
    edgeBit (classifyEdge e) = if 400 < e.toNat then none else some (decide (160 < e.toNat)) := by
  unfold classifyEdge thResync thOne thZero
  simp only [BitVec.lt_def]
  norm_num
  split
  · rfl
  · split
    · simp [edgeBit, *]
    · split <;> simp [edgeBit, *]

/-- `word[31 - bitIndex] <- b` bit by bit (R145). -/
theorem getLsbD_setAccBit (w : Word) (i : BitVec 5) (b : Bool) (k : Nat) (hk : k < 32) :
    (setAccBit w i b).getLsbD k = if k = 31 - i.toNat then b else w.getLsbD k := by
  unfold setAccBit
  have hi : 31 - i.toNat < 32 := by omega
  cases b <;> by_cases h : k = 31 - i.toNat <;>
    simp [h, hi, hk]

@[simp] theorem countEdge_accumulatingWord (d : Dec) : (countEdge d).accumulatingWord = d.accumulatingWord := rfl
@[simp] theorem countEdge_bitIndex (d : Dec) : (countEdge d).bitIndex = d.bitIndex := rfl
@[simp] theorem countEdge_wordSlot (d : Dec) : (countEdge d).wordSlot = d.wordSlot := rfl
@[simp] theorem countEdge_edgeCount (d : Dec) : (countEdge d).edgeCount = d.edgeCount + 1#32 := rfl

/-- Everything EDGE can do (R140): resync; accumulate; finalise; hand off a frame that is accepted; hand off one that is
not. -/
theorem edgeWith_cases (c : Config) (e : Ticks) (s : State) :
    (400 < e.toNat ∧
      edgeWith c e s = { s with
        dec := ⟨0#32, 0#5, 0#2, s.dec.edgeCount + 1#32⟩, response := some ⟨.ack, 0#11⟩, effects := [] }) ∨
    (e.toNat ≤ 400 ∧ finaliseNow (countEdge s.dec) = false ∧
      edgeWith c e s = { s with
        dec := ⟨setAccBit s.dec.accumulatingWord s.dec.bitIndex (decide (160 < e.toNat)), s.dec.bitIndex + 1#5,
          s.dec.wordSlot, s.dec.edgeCount + 1#32⟩
        response := some ⟨.ack, 0#11⟩
        effects := [] }) ∨
    (e.toNat ≤ 400 ∧ finaliseNow (countEdge s.dec) = true ∧ s.dec.wordSlot ≠ 3#2 ∧
      edgeWith c e s = { s with
        dec := ⟨0#32, 0#5, s.dec.wordSlot + 1#2, s.dec.edgeCount + 1#32⟩
        rx := s.rx.setWord s.dec.wordSlot.toNat
          (setAccBit s.dec.accumulatingWord s.dec.bitIndex (decide (160 < e.toNat)))
        response := some ⟨.ack, 0#11⟩
        effects := [] }) ∨
    (e.toNat ≤ 400 ∧ finaliseNow (countEdge s.dec) = true ∧ s.dec.wordSlot = 3#2 ∧ s.rx.w0 = c.addrL ∧
      edgeWith c e s = { s with
        dec := ⟨0#32, 0#5, 0#2, 0#32⟩
        rx := { s.rx with w3 := setAccBit s.dec.accumulatingWord s.dec.bitIndex (decide (160 < e.toNat)) }
        last := decodeFrame c s.rx
        response := some ⟨.ack, 0#11⟩
        effects := [.report (decodeTemp c s.rx.w1) (decodeFan c s.rx.w2) (decodeBlower c s.rx.w2)] }) ∨
    (e.toNat ≤ 400 ∧ finaliseNow (countEdge s.dec) = true ∧ s.dec.wordSlot = 3#2 ∧ s.rx.w0 ≠ c.addrL ∧
      edgeWith c e s = { s with
        dec := ⟨0#32, 0#5, 0#2, 0#32⟩
        rx := { s.rx with w3 := setAccBit s.dec.accumulatingWord s.dec.bitIndex (decide (160 < e.toNat)) }
        response := some ⟨.ack, 0#11⟩
        effects := [] }) := by
  by_cases he : 400 < e.toNat
  · exact .inl ⟨he, by simp only [edgeWith, edgeBit_classifyEdge, he, if_true]; rfl⟩
  have he' : e.toNat ≤ 400 := by omega
  by_cases hf : finaliseNow (countEdge s.dec) = true
  swap
  · refine .inr (.inl ⟨he', by simpa using hf, ?_⟩)
    simp only [edgeWith, edgeBit_classifyEdge, he, if_false, dataEdge, State.setDec_dec, hf]
    rfl
  by_cases hs : s.dec.wordSlot = 3#2
  swap
  · have hs' : ¬ s.dec.wordSlot.toNat + 1 = 4 := by
      intro h; exact hs (BitVec.eq_of_toNat_eq (by simpa using h))
    refine .inr (.inr (.inl ⟨he', hf, hs, ?_⟩))
    simp only [edgeWith, edgeBit_classifyEdge, he, if_false, dataEdge, State.setDec_dec, hf, if_true, finaliseWord,
      decWords, countEdge_wordSlot, hs']
    rfl
  have hs' : s.dec.wordSlot.toNat = 3 := by rw [hs]; rfl
  by_cases ha : s.rx.w0 = c.addrL
  · refine .inr (.inr (.inr (.inl ⟨he', hf, hs, ha, ?_⟩)))
    simp only [edgeWith, edgeBit_classifyEdge, he, if_false, dataEdge, State.setDec_dec, hf, if_true, finaliseWord,
      decWords, countEdge_wordSlot, hs', handOff, interpret_eq, State.setDec_rx, State.setRx_rx, FrameBuf.setWord, State.begin_rx,
      ha]
    rfl
  · refine .inr (.inr (.inr (.inr ⟨he', hf, hs, ha, ?_⟩)))
    simp only [edgeWith, edgeBit_classifyEdge, he, if_false, dataEdge, State.setDec_dec, hf, if_true, finaliseWord,
      decWords, countEdge_wordSlot, hs', handOff, interpret_eq, State.setDec_rx, State.setRx_rx, FrameBuf.setWord, State.begin_rx,
      ha]
    rfl

/-! ### The events -/

/-- `exec` is the event function at the machine's own configuration. -/
theorem exec_eq (i : Instr) (s : State) : exec i s = .next (eventWith Config.board i s) := by
  cases i <;> rfl

end Sys2Proof.Machine
end

