-- ==== Sys2Proof/Laws/PerInstr.lean ====
section
/-! SUPPORT. Statements for all instructions, one lemma per constructor. Family `EncodedRow`: the encoded word of an event
meets its row of the opcode map (R62). -/
namespace Sys2Proof.Laws.EncodedRow

/-- `W & mask == match` for the word an event is encoded to (R62). -/
def Statement (i : Instr) : Prop := encode i &&& rowMask i = rowPattern i

/-- The masked bits of a word with no operand but `t32` are those of its upper 16 bits. -/
theorem upper_masked (op : BitVec 3) (now : Ticks) (p : EventWord)
    (h : (wordOf ⟨op, 0#1, 0#4, 0#8, 0#32⟩) = p) :
    wordOf ⟨op, 0#1, 0#4, 0#8, now⟩ &&& 0xFFFF00000000#48 = p := by
  subst h
  apply BitVec.eq_of_getLsbD_eq
  intro i hi
  rw [BitVec.getLsbD_and, getLsbD_wordOf, getLsbD_wordOf]
  by_cases h : i < 32
  · have : (0xFFFF00000000#48).getLsbD i = false := by interval_cases i <;> rfl
    simp [h, this]
  · have : (0xFFFF00000000#48).getLsbD i = true := by
      simp only [not_lt] at h
      interval_cases i <;> rfl
    simp [h, this]

theorem req (v : Variant) (temp : Byte) (now : Ticks) : Statement (.req v temp now) := by
  show wordOf ⟨1#3, variantBit v, 0#4, temp, now⟩ &&& 0xEF0000000000#48 = wordOf ⟨1#3, 0#1, 0#4, 0#8, 0#32⟩
  apply BitVec.eq_of_getLsbD_eq
  intro i hi
  rw [BitVec.getLsbD_and, getLsbD_wordOf, getLsbD_wordOf]
  by_cases h : i < 40 ∨ i = 44
  · have : (0xEF0000000000#48).getLsbD i = false := by
      rcases h with h | h
      · interval_cases i <;> rfl
      · subst h; rfl
    rw [this, Bool.and_false]
    split_ifs <;> first | omega | simp
  · have : (0xEF0000000000#48).getLsbD i = true := by
      simp only [not_or, not_lt] at h
      interval_cases i <;> first | rfl | omega
    rw [this, Bool.and_true]
    split_ifs <;> first | omega | rfl

theorem ledOn : Statement .ledOn := rfl

theorem ledOff : Statement .ledOff := rfl

theorem getSt : Statement .getSt := rfl

theorem tick (now : Ticks) : Statement (.tick now) :=
  upper_masked 5#3 now _ rfl

theorem edge (e : Ticks) : Statement (.edge e) :=
  upper_masked 6#3 e _ rfl

end Sys2Proof.Laws.EncodedRow
end

