-- ==== Sys2Proof/Laws/Pseudo.lean ====
section
/-! SUPPORT. What the symbols-to-edges conversion gives (R77), and the configuration check of R162 as the premise the
statements use. Cite these instead of unfolding the division or the list of codes. -/
namespace Sys2Proof.Machine

/-- Rounding up compared with a whole number: `c(p) <= k` iff `RX_PER_TX * p <= k`. -/
theorem ceilTicks_le_iff (c : Config) (p : Half) (k : Nat) (h : c.ratioPositive = true) :
    ceilTicks c p ≤ k ↔ c.rxPerTxNum * p.toNat ≤ k * c.rxPerTxDen := by
  have hd : 0 < c.rxPerTxDen := by
    simp only [Config.ratioPositive, Bool.and_eq_true, decide_eq_true_eq] at h
    exact h.2
  unfold ceilTicks
  rw [Nat.div_le_iff_le_mul_add_pred hd, Nat.mul_comm c.rxPerTxDen k]
  omega

/-- A conversion that fits is the operand's number. -/
theorem toNat_edgeOperand (c : Config) (p : Half) (h : ceilTicks c p < 2 ^ 32) :
    (edgeOperand c p).toNat = ceilTicks c p := by
  rw [edgeOperand, if_pos h, BitVec.toNat_ofNat, Nat.mod_eq_of_lt h]

/-- k values for k symbols. -/
theorem length_edgesOf (c : Config) (gap : Ticks) (symbols : List TimingEntry) :
    (edgesOf c gap symbols).length = symbols.length := by
  cases symbols <;> simp [edgesOf]

/-- The check of R162 is the pointwise premise of the round trip. -/
theorem codesDistinct_iff (c : Config) : c.codesDistinct = true ↔ DistinctCodes c := by
  have hl : c.knownCodes = tempRange.map (fun t => (c.codeL t).c1) := rfl
  have hn : tempRange.Nodup := by decide
  rw [Config.codesDistinct, decide_eq_true_eq, hl, List.nodup_map_iff_inj_on hn]
  rfl

end Sys2Proof.Machine
end

