-- ==== Sys2Proof/Tests/Excfg.lean ====
section
/-! SUPPORT. EXCFG, the illustrative configuration of 95_test_vectors.md section 1.2: invented by the spec so that vectors
have numbers, nothing in it is the hardware's. Used by the tests only. -/
namespace Sys2Proof.Tests
open Sys2Proof.Machine

/-- The Legacy code ROM of EXCFG: c1 = (t << 24) | 0x00AA0000. -/
def excfgCodeL (t : Byte) : CodeL :=
  let c1 : Word := t ++ 0xAA0000#24
  let c2 : Word := if t = 0#8 then 0x00300000#32 else 0x40300000#32
  ⟨c1, c2, 0xA5C30F01#32 ^^^ c1 ^^^ c2⟩

/-- The Modern code ROM of EXCFG: c1 = (t << 8) | 0x5A, ck = not c1. -/
def excfgCodeM (t : Byte) : CodeM := ⟨t ++ 0x5A#8, ~~~(t ++ 0x5A#8)⟩

/-- EXCFG. -/
def excfg : Config where
  tt := ⟨⟨520#16, 340#16⟩, ⟨170#16, 45#16⟩, ⟨90#16, 45#16⟩, ⟨600#16, 400#16⟩, ⟨180#16, 60#16⟩, ⟨100#16, 60#16⟩, ⟨800#16, 0#16⟩⟩
  addrL := 0xA5C30F01#32
  addrM := 0xB24D#16
  codeL := excfgCodeL
  codeM := excfgCodeM
  fanMask := 0x00F00000#32
  fanPattern
    | 0 => 0x00100000#32
    | 1 => 0x00200000#32
    | 2 => 0x00300000#32
  blowerShift := 28#5
  blowerFieldMask := 0xF#32
  blowerThreshold := 3#32
  rxPerTxNum := 1
  rxPerTxDen := 1
  absentBit := fun _ _ _ => false
  wideInterval := fun _ => 0#32

end Sys2Proof.Tests
end

