-- ==== Sys2Proof/Tests/Slice0.lean ====
section
/-! SUPPORT. The model's own tests: WellFormed smoke, decode words, one-step vectors of 95_test_vectors.md under EXCFG, and a
witness for every statement with hypotheses (`test_witness_<statement>`). Expected values are the spec's. -/
namespace Sys2Proof.Tests
open Sys2Proof Sys2Proof.Machine

/-! ## WellFormed smoke: each check refuses an ill-formed term -/

/-- R65: op 0b000 and 0b111 are not assigned. -/
theorem test_wf_op : (EventFields.mk 0#3 0#1 0#4 0#8 0#32).opAssigned = false ∧
    (EventFields.mk 7#3 0#1 0#4 0#8 0#32).opAssigned = false ∧
    (EventFields.mk 1#3 0#1 0#4 0#8 0#32).opAssigned = true ∧
    (EventFields.mk 6#3 0#1 0#4 0#8 0#32).opAssigned = true := by decide

/-- R65: rsv must be 0. -/
theorem test_wf_rsv : (EventFields.mk 1#3 0#1 8#4 24#8 1000#32).rsvZero = false ∧
    (EventFields.mk 1#3 0#1 0#4 24#8 1000#32).rsvZero = true := by decide

/-- R62, R64: each field an event does not use must be 0. -/
theorem test_wf_unused : (EventFields.mk 2#3 0#1 0#4 0#8 1#32).unusedZero = false ∧
    (EventFields.mk 5#3 1#1 0#4 0#8 5#32).unusedZero = false ∧
    (EventFields.mk 6#3 0#1 0#4 1#8 90#32).unusedZero = false ∧
    (EventFields.mk 6#3 0#1 0#4 0#8 90#32).unusedZero = true := by decide

/-- Each of the three checks is part of the whole. -/
theorem test_wf_fields : (EventFields.mk 7#3 0#1 0#4 0#8 0#32).wellFormed = false ∧
    (EventFields.mk 1#3 0#1 1#4 24#8 1000#32).wellFormed = false ∧
    (EventFields.mk 4#3 0#1 0#4 1#8 0#32).wellFormed = false ∧
    (EventFields.mk 1#3 1#1 0#4 200#8 777#32).wellFormed = true := by decide

/-- R45: a period of 0, and an on-time above the period, are ill formed. -/
theorem test_wf_timing : (TimingEntry.mk 0#16 0#16).wellFormed = false ∧ (TimingEntry.mk 90#16 91#16).wellFormed = false ∧
    (TimingEntry.mk 1#16 1#16).wellFormed = true := by decide

/-- R5: a pattern outside the mask, and a ratio of 0, are ill formed. -/
theorem test_wf_config : excfg.tt.wellFormed = true ∧ excfg.fanPatternsMasked = true ∧ excfg.ratioPositive = true ∧
    { excfg with fanPattern := fun _ => 0x00200001#32 }.fanPatternsMasked = false ∧
    { excfg with rxPerTxNum := 0 }.ratioPositive = false := by decide

/-- The top byte of EXCFG's `c1` is the temperature. -/
theorem excfg_c1_top (t : Byte) : ((excfg.codeL t).c1).extractLsb' 24 8 = t := by
  show (t ++ 0xAA0000#24).extractLsb' 24 8 = t
  apply BitVec.eq_of_getLsbD_eq
  intro i hi
  have h := BitVec.getLsbD_append (x := t) (y := 0xAA0000#24) (i := 24 + i)
  simpa [hi] using h

/-- The 15 codes of EXCFG are distinct (95 section 1.2). -/
theorem excfg_distinct : DistinctCodes excfg := by
  intro t _ u _ h
  have := congrArg (·.extractLsb' 24 8) h
  simpa only [excfg_c1_top] using this

/-- R162: EXCFG's codes are distinct; one word for every temperature is ill formed. -/
theorem test_wf_codes : excfg.codesDistinct = true ∧
    { excfg with codeL := fun _ => ⟨0#32, 0#32, 0#32⟩ }.codesDistinct = false :=
  ⟨(codesDistinct_iff _).2 excfg_distinct, by decide⟩

/-- EXCFG is well formed. -/
theorem test_wf_excfg : excfg.wellFormed = true := by
  rw [Config.wellFormed, test_wf_codes.1]
  decide

/-! ## Decoding: words written out from the encoding (R60 to R65, R76; 95 section 3.7) -/

/-- op 001, v 0, rsv 0000, temp 00011000, t32 1000; and v 1. -/
theorem test_decode_req :
    decode (0b001#3 ++ 0b0#1 ++ 0b0000#4 ++ 0b00011000#8 ++ 0x000003E8#32) = .ok (.req .legacy 24#8 1000#32) ∧
    decode 0x301400000000#48 = .ok (.req .modern 20#8 0#32) ∧
    decode 0x20C800000309#48 = .ok (.req .legacy 200#8 777#32) := by decide

theorem test_decode_ledOn : decode (0b010#3 ++ 0#45) = .ok .ledOn := by decide

theorem test_decode_ledOff : decode (0b011#3 ++ 0#45) = .ok .ledOff := by decide

theorem test_decode_getSt : decode (0b100#3 ++ 0#45) = .ok .getSt := by decide

/-- X8. -/
theorem test_decode_tick : decode (0b101#3 ++ 0#13 ++ 0xFFFFFFFF#32) = .ok (.tick 0xFFFFFFFF#32) ∧
    decode 0xA0000000004D#48 = .ok (.tick 77#32) := by decide

theorem test_decode_edge : decode (0b110#3 ++ 0#13 ++ 0x00000208#32) = .ok (.edge 520#32) := by decide

/-- X1 to X6, each refused by its own name. -/
theorem test_decode_reserved :
    decode 0x000000000000#48 = .error .reservedOp ∧ decode 0xE00000000000#48 = .error .reservedOp ∧
    decode 0x2118000003E8#48 = .error .reservedField ∧ decode 0x400000000001#48 = .error .unusedField ∧
    decode 0xB00000000005#48 = .error .unusedField ∧ decode 0xC0010000005A#48 = .error .unusedField := by decide

/-- The encoder at every operand bit set (R62). -/
theorem test_encode : encode (.req .modern 0xFF#8 0xFFFFFFFF#32) = 0x30FFFFFFFFFF#48 ∧
    encode (.tick 0xFFFFFFFF#32) = 0xA000FFFFFFFF#48 ∧ encode (.edge 0x80000000#32) = 0xC00080000000#48 := by decide

/-- The table's match values, as the host numbers them. -/
theorem test_table_word : decodeTableWord 48 0x200000000000 = some (.req .legacy 0#8 0#32) ∧
    decodeTableWord 48 0xC00000000000 = some (.edge 0#32) ∧ decodeTableWord 48 0x1000000000000 = none ∧
    decodeTableWord 48 0xE00000000000 = none := by decide

/-- Response and effect words of 95 section 3.7. -/
theorem test_words : responseWord ⟨.nak, 0#11⟩ = 0x4000#16 ∧ responseWord ⟨.fail, 0#11⟩ = 0xC000#16 ∧
    effectWord (.setInterval 520#16 340#16) = 0x102080154#36 ∧ effectWord (.report 24#8 2#2 true) = 0x400000618#36 ∧
    effectWord (.report 0xFF#8 2#2 false) = 0x4000002FF#36 := by decide

/-! ## One-step vectors of 95_test_vectors.md, under EXCFG -/

/-- The state with the given encoder record, frame buffer and gate; all else as after reset. -/
def encState (e : Enc) (f : FrameBuf) (gate : Bool) : State := { State.reset with enc := e, f := f, carrierEnable := gate }

/-- The state with the given decoder record and receive buffer; all else as after reset. -/
def decState (d : Dec) (rx : FrameBuf) : State := { State.reset with dec := d, rx := rx }

/-- The frame of H1. -/
def frameH1 : FrameBuf := ⟨0xA5C30F01#32, 0x18AA0000#32, 0x40300000#32, 0xFD590F01#32⟩

/-- The frame of H2. -/
def frameH2 : FrameBuf := ⟨0x145AB24D#32, 0x0000EBA5#32, 0#32, 0#32⟩

/-- The Legacy encoder record at position (`wi`, `bi`), repeat count `rc`, issued at 1000 for 24. -/
def legacyAt (wi : BitVec 3) (bi : BitVec 5) (rc : BitVec 4) : Enc :=
  ⟨true, true, true, .legacy, 113#8, bi, wi, rc, false, 1000#32, 24#8⟩

/-- The Modern encoder record at position (`wi`, `bi`), repeat count `rc`, issued at 0 for 20. -/
def modernAt (wi : BitVec 3) (bi : BitVec 5) (rc : BitVec 4) : Enc :=
  ⟨true, true, true, .modern, 48#8, bi, wi, rc, false, 0#32, 20#8⟩

/-- MID (section 3.1). -/
def mid : State := encState (legacyAt 1#3 8#5 0#4) frameH1 true

/-- H12: a Modern request over a Legacy frame in flight restarts the position and leaves half-words 3 to 7. -/
theorem test_req_H12 : (eventWith excfg (.req .modern 16#8 1150#32) mid).enc =
      ⟨true, false, false, .modern, 48#8, 0#5, 0#3, 0#4, false, 1150#32, 16#8⟩ ∧
    (eventWith excfg (.req .modern 16#8 1150#32) mid).f = ⟨0x105AB24D#32, 0x18AAEFA5#32, 0x40300000#32, 0xFD590F01#32⟩ ∧
    (eventWith excfg (.req .modern 16#8 1150#32) mid).carrierEnable = true := by decide

/-- H9: 5 under Modern fails, state bit for bit as before. -/
theorem test_req_H9 : eventWith excfg (.req .modern 5#8 5000#32) mid =
    { mid with response := some ⟨.fail, 0#11⟩ } := by decide

/-- G1. -/
theorem test_ledOn_G1 : eventWith excfg .ledOn State.reset =
    { State.reset with carrierEnable := true, response := some ⟨.ack, 0#11⟩, effects := [.carrierOn] } := by decide

/-- G8: the sequencer is not touched. -/
theorem test_ledOff_G8 : eventWith excfg .ledOff mid =
    { mid with carrierEnable := false, response := some ⟨.ack, 0#11⟩, effects := [.carrierOff] } := by decide

/-- G5, G7. -/
theorem test_getSt_G5 :
    (eventWith excfg .getSt { State.reset with last := ⟨24#8, 2#2, true⟩ }).response.map responseWord = some 0x0618#16 ∧
    (eventWith excfg .getSt { State.reset with last := ⟨0xFF#8, 3#2, false⟩ }).response.map responseWord = some 0x03FF#16 := by
  decide

/-- T6c: bit 31 of the frame is 1 and the word wraps. -/
theorem test_tick_T6c : (eventWith excfg (.tick 1133#32) (encState (legacyAt 0#3 31#5 0#4) frameH1 true)).enc = legacyAt 1#3 0#5 0#4 ∧
    (eventWith excfg (.tick 1133#32) (encState (legacyAt 0#3 31#5 0#4) frameH1 true)).effects = [.setInterval 170#16 45#16] := by
  decide

/-- M7: the end of the first Modern frame keeps `issuedAtTick` and programs the rest timing. -/
theorem test_tick_M7 : (eventWith excfg (.tick 150#32) (encState (modernAt 3#3 0#5 0#4) frameH2 true)).enc =
      ⟨true, false, false, .modern, 48#8, 0#5, 0#3, 1#4, false, 0#32, 20#8⟩ ∧
    (eventWith excfg (.tick 150#32) (encState (modernAt 3#3 0#5 0#4) frameH2 true)).effects =
      [.carrierOff, .setInterval 800#16 0#16] := by decide

/-- E10. -/
theorem test_edge_E10 : (eventWith excfg (.edge 200#32) (decState ⟨0xA0000000#32, 3#5, 0#2, 0#32⟩ FrameBuf.zero)).dec =
    ⟨0xB0000000#32, 4#5, 0#2, 1#32⟩ := by decide

/-- E10c: both finalise conditions at once; hand-off and report. -/
theorem test_edge_E10c :
    let s := decState ⟨0xFD590F00#32, 31#5, 3#2, 113#32⟩ ⟨0xA5C30F01#32, 0x18AA0000#32, 0x40300000#32, 0#32⟩
    (eventWith excfg (.edge 170#32) s).dec = ⟨0#32, 0#5, 0#2, 0#32⟩ ∧ (eventWith excfg (.edge 170#32) s).rx = frameH1 ∧
    (eventWith excfg (.edge 170#32) s).last = ⟨24#8, 2#2, true⟩ ∧
    (eventWith excfg (.edge 170#32) s).effects = [.report 24#8 2#2 true] := by decide

/-- X1 through the step: a reserved word answers NAK. -/
theorem test_step_nak : step { mid with stream := [0#48] } = .next { mid with response := some ⟨.nak, 0#11⟩ } := by
  rfl

/-! ## Witnesses: states and operands that meet the hypotheses of each statement -/

theorem test_witness_DecodeOfEncodeIsIdentity : (Instr.req .modern 0xFF#8 0xFFFFFFFF#32).wellFormed = true ∧
    Instr.getSt.wellFormed = true := by decide

theorem test_witness_EachEventHasOneSpelling : decode 0xC000FFFFFFFF#48 = .ok (.edge 0xFFFFFFFF#32) := by decide

/-- A word of each row, all operand bits set, and one next to a row. -/
theorem test_witness_DecodeFollowsOpcodeMap :
    0x30FFFFFFFFFF#48 &&& 0xEF0000000000#48 = 0x200000000000#48 ∧
    0x400000000000#48 &&& 0xFFFFFFFFFFFF#48 = 0x400000000000#48 ∧
    0x600000000000#48 &&& 0xFFFFFFFFFFFF#48 = 0x600000000000#48 ∧
    0x800000000000#48 &&& 0xFFFFFFFFFFFF#48 = 0x800000000000#48 ∧
    0xA000FFFFFFFF#48 &&& 0xFFFF00000000#48 = 0xA00000000000#48 ∧
    0xC000FFFFFFFF#48 &&& 0xFFFF00000000#48 = 0xC00000000000#48 ∧
    0xC001FFFFFFFF#48 &&& 0xFFFF00000000#48 ≠ 0xC00000000000#48 := by decide

theorem test_witness_DecoderAcceptsWellFormedFieldsOnly : (fieldsOf 0x20FFFFFFFFFF#48).wellFormed = true ∧
    (fieldsOf 0x21FFFFFFFFFF#48).wellFormed = false := by decide

/-- The last word and the last half-word; 4 and 8 are outside. -/
theorem test_witness_ViewsOverlayOneBuffer : frameH1.word? 3 = some 0xFD590F01#32 ∧ frameH1.word? 4 = none ∧
    frameH1.half? 7 = some 0xFD59#16 ∧ frameH1.half? 8 = none ∧ (frameH1.setHalf 7 0xFFFF#16).w3 = 0xFFFF0F01#32 := by
  decide

theorem test_witness_StepRunsTheDecodedEvent : (State.reset.withFetchWord 48 0x400000000000).stream = [0x400000000000#48] ∧
    decode 0x400000000000#48 = .ok .ledOn := by decide

/-- One word for each clause: op 0, op 7, rsv, v, temp, t32. -/
theorem test_witness_ReservedWordAnswersNak :
    (0x000000000000#48).extractLsb' 45 3 = 0#3 ∧ (0xE00000000000#48).extractLsb' 45 3 = 7#3 ∧
    (0x2118000003E8#48).extractLsb' 40 4 ≠ 0#4 ∧
    ((0xB00000000005#48).extractLsb' 45 3 ≠ 1#3 ∧ (0xB00000000005#48).extractLsb' 44 1 ≠ 0#1) ∧
    ((0xC0010000005A#48).extractLsb' 45 3 ≠ 1#3 ∧ (0xC0010000005A#48).extractLsb' 32 8 ≠ 0#8) ∧
    ((0x400000000001#48).extractLsb' 45 3 = 2#3 ∧ (0x400000000001#48).extractLsb' 0 32 ≠ 0#32) ∧
    ((0x600080000000#48).extractLsb' 45 3 = 3#3 ∧ (0x600080000000#48).extractLsb' 0 32 ≠ 0#32) ∧
    ((0x800000000001#48).extractLsb' 45 3 = 4#3 ∧ (0x800000000001#48).extractLsb' 0 32 ≠ 0#32) := by decide

theorem test_witness_NoEventNoChange : State.reset.stream = [] := rfl

theorem test_witness_EveryEventWordCompletes : { State.reset with stream := [0#48, 0x400000000000#48] }.stream =
    0#48 :: [0x400000000000#48] := rfl

/-- The invariant at a state in mid frame, at the last position before the frame's end, with a partial word. -/
theorem test_witness_StepKeepsInvariant :
    let s : State := { encState (legacyAt 3#3 16#5 5#4) frameH1 true with dec := ⟨0x80000000#32, 1#5, 0#2, 3#32⟩ }
    s.Inv ∧ ∃ t, step (s.withFetchWord 48 0x400000000000) = .next t := by
  refine ⟨⟨by decide, by decide, by decide, by decide, by decide, by decide, by decide, by decide, by decide, ?_⟩, _, rfl⟩
  intro k hk
  have h : k ≤ 30 := hk
  interval_cases k <;> rfl

/-- A state in flight that holds the frame of its own ROM. -/
theorem test_witness_StepKeepsRomFrame :
    let s := eventWith Config.board (.req .legacy 24#8 1000#32) State.reset
    s.enc.issued = true ∧ HoldsRomFrame Config.board s ∧ ∃ t, step (s.withFetchWord 48 0x400000000000) = .next t :=
  ⟨rfl, fun _ => rfl, _, rfl⟩

/-- The ends of the supported set, 0 and 5. -/
theorem test_witness_ReqLegacyIssuesCommand : ∀ t ∈ [0#8, 5#8, 16#8, 30#8],
    (t = 0#8 ∨ t = 5#8 ∨ (16 ≤ t.toNat ∧ t.toNat ≤ 30)) := by decide

theorem test_witness_ReqModernIssuesCommand : ∀ t ∈ [0#8, 16#8, 30#8],
    (t = 0#8 ∨ (16 ≤ t.toNat ∧ t.toNat ≤ 30)) := by decide

/-- The temperatures next to the supported ones, and 5 under Modern. -/
theorem test_witness_ReqUnsupportedFails :
    (∀ t ∈ [1#8, 4#8, 6#8, 15#8, 31#8, 255#8],
      ¬(t = 0#8 ∨ (t = 5#8 ∧ Variant.legacy = .legacy) ∨ (16 ≤ t.toNat ∧ t.toNat ≤ 30))) ∧
    ¬(5#8 = 0#8 ∨ (5#8 = 5#8 ∧ Variant.modern = .legacy) ∨ (16 ≤ (5#8).toNat ∧ (5#8).toNat ≤ 30)) := by decide

theorem test_witness_TickInIdleDoesNothing : State.reset.enc.issued = false := rfl

/-- Distances 0 and 99, and 99 across the wrap (T10). -/
theorem test_witness_TickInGuardWindowIgnored : mid.enc.issued = true ∧
    (1000 + (2 ^ 32 - mid.enc.issuedAtTick.toNat)) % 2 ^ 32 < 100 ∧
    (1099 + (2 ^ 32 - mid.enc.issuedAtTick.toNat)) % 2 ^ 32 < 100 ∧
    ((83#32).toNat + (2 ^ 32 - (0xFFFFFFF0#32).toNat)) % 2 ^ 32 < 100 := by decide

/-- Distance 100, and 100 across the wrap (T11), before the address phase, for each variant. -/
theorem test_witness_TickAddressPhase :
    ∀ v ∈ [Variant.legacy, Variant.modern],
      let e : Enc := { legacyAt 0#3 0#5 0#4 with addressSent := false, commReady := false, variant := v }
      e.issued = true ∧ 100 ≤ (1100#32 - e.issuedAtTick).toNat ∧ e.addressSent = false ∧
      100 ≤ (84#32 - 0xFFFFFFF0#32).toNat := by decide

theorem test_witness_TickCommReadyPhase :
    let e : Enc := { legacyAt 0#3 0#5 0#4 with commReady := false }
    e.issued = true ∧ 100 ≤ (1101#32 - e.issuedAtTick).toNat ∧ e.addressSent = true ∧ e.commReady = false := by decide

/-- Positions 0, 31, 32 and 112, and 127 of a longer frame. -/
theorem test_witness_TickLegacyBitPhase :
    (∀ e ∈ [legacyAt 0#3 0#5 0#4, legacyAt 0#3 31#5 0#4, legacyAt 1#3 0#5 0#4, legacyAt 3#3 16#5 0#4,
        { legacyAt 3#3 31#5 0#4 with frameLenBits := 255#8 }],
      e.issued = true ∧ 100 ≤ (1102#32 - e.issuedAtTick).toNat ∧ e.addressSent = true ∧ e.commReady = true ∧
      e.variant = .legacy ∧ 32 * e.wordIndex.toNat + e.bitIndex.toNat < e.frameLenBits.toNat ∧
      32 * e.wordIndex.toNat + e.bitIndex.toNat < 128) := by decide

/-- Positions 0, 15, 16 and 47. -/
theorem test_witness_TickModernBitPhase :
    (∀ e ∈ [modernAt 0#3 0#5 0#4, modernAt 0#3 15#5 0#4, modernAt 1#3 0#5 0#4, modernAt 2#3 15#5 0#4],
      e.issued = true ∧ 100 ≤ (102#32 - e.issuedAtTick).toNat ∧ e.addressSent = true ∧ e.commReady = true ∧
      e.variant = .modern ∧ e.bitIndex.toNat ≤ 15 ∧
      16 * e.wordIndex.toNat + e.bitIndex.toNat < e.frameLenBits.toNat) := by decide

/-- A wrap and no wrap, for each variant; and Modern bit index 16, which no run reaches. -/
theorem test_witness_TickBitPhaseProgramsOneSymbol :
    (∀ e ∈ [legacyAt 0#3 31#5 0#4, legacyAt 0#3 30#5 0#4, modernAt 0#3 15#5 0#4, modernAt 0#3 16#5 0#4],
      e.issued = true ∧ 100 ≤ (1102#32 - e.issuedAtTick).toNat ∧ e.addressSent = true ∧ e.commReady = true ∧
      totalBits e < e.frameLenBits.toNat) ∧
    (legacyAt 0#3 31#5 0#4).bitIndex.toNat + 1 = 32 ∧ (modernAt 0#3 15#5 0#4).bitIndex.toNat + 1 = 16 ∧
    (legacyAt 0#3 30#5 0#4).bitIndex.toNat + 1 ≠ 32 ∧ (modernAt 0#3 16#5 0#4).bitIndex.toNat + 1 ≠ 16 := by decide

/-- Position 113, repeat counts on both sides of 5. -/
theorem test_witness_TickLegacyFrameComplete :
    (∀ e ∈ [legacyAt 3#3 17#5 0#4, legacyAt 3#3 17#5 4#4, legacyAt 3#3 17#5 5#4],
      e.issued = true ∧ 100 ≤ (1215#32 - e.issuedAtTick).toNat ∧ e.addressSent = true ∧ e.commReady = true ∧
      e.variant = .legacy ∧ e.frameLenBits.toNat ≤ 32 * e.wordIndex.toNat + e.bitIndex.toNat) ∧
    (legacyAt 3#3 17#5 4#4).repeatCount.toNat < 5 ∧ ¬(legacyAt 3#3 17#5 5#4).repeatCount.toNat < 5 := by decide

/-- Position 48, repeat counts even and odd below 9, and 9. -/
theorem test_witness_TickModernFrameComplete :
    (∀ e ∈ [modernAt 3#3 0#5 0#4, modernAt 3#3 0#5 7#4, modernAt 3#3 0#5 8#4, modernAt 3#3 0#5 9#4],
      e.issued = true ∧ 100 ≤ (150#32 - e.issuedAtTick).toNat ∧ e.addressSent = true ∧ e.commReady = true ∧
      e.variant = .modern ∧ e.frameLenBits.toNat ≤ 16 * e.wordIndex.toNat + e.bitIndex.toNat) ∧
    (modernAt 3#3 0#5 8#4).repeatCount.toNat < 9 ∧ (modernAt 3#3 0#5 8#4).repeatCount.toNat % 2 = 0 ∧
    (modernAt 3#3 0#5 7#4).repeatCount.toNat % 2 ≠ 0 ∧ ¬(modernAt 3#3 0#5 9#4).repeatCount.toNat < 9 := by decide

theorem test_witness_EdgeResyncRestartsCapture : 400 < (401#32).toNat ∧ 400 < (0xFFFFFFFF#32).toNat := by decide

/-- Intervals 0, 160, 161 and 400 at bit indices 0 and 30. -/
theorem test_witness_EdgeAccumulatesBit :
    (∀ e ∈ [0#32, 160#32, 161#32, 400#32], e.toNat ≤ 400) ∧
    (∀ d ∈ [Dec.mk 0#32 0#5 0#2 2#32, Dec.mk 0x80000000#32 30#5 3#2 112#32],
      d.bitIndex.toNat < 31 ∧ d.edgeCount + 1#32 ≠ 114#32) := by simp

/-- Slots 0 and 2; the word full, the count at 114, and both. -/
theorem test_witness_EdgeFinalisesWord :
    (∀ d ∈ [Dec.mk 0#32 31#5 0#2 33#32, Dec.mk 0#32 15#5 2#2 113#32, Dec.mk 0#32 31#5 2#2 113#32],
      (d.bitIndex.toNat = 31 ∨ d.edgeCount + 1#32 = 114#32) ∧ d.wordSlot.toNat < 3) ∧ (400#32).toNat ≤ 400 := by decide

/-- Slot 3, by a full word and by the count; with an address that is the constant, and one that is not. -/
theorem test_witness_EdgeHandsOffFrame :
    (∀ d ∈ [Dec.mk 0#32 31#5 3#2 0#32, Dec.mk 0#32 15#5 3#2 113#32],
      (d.bitIndex.toNat = 31 ∨ d.edgeCount + 1#32 = 114#32) ∧ d.wordSlot.toNat = 3) ∧
    (decState ⟨0#32, 15#5, 3#2, 113#32⟩ ⟨Config.board.addrL, 0#32, 0#32, 0#32⟩).rx.w0 = Config.board.addrL ∧
    (decState ⟨0#32, 15#5, 3#2, 113#32⟩ ⟨~~~Config.board.addrL, 0#32, 0#32, 0#32⟩).rx.w0 ≠ Config.board.addrL := by
  refine ⟨by decide, rfl, ?_⟩
  intro h
  have := congrArg (·.getLsbD 0) h
  simp [decState] at this

/-- 16 and 30, the ends of the lookup, are each the first match of their code; 0 has no match. -/
theorem test_witness_TemperatureIsFirstMatchingCode :
    (∀ t ∈ [16#8, 30#8], ∀ u : Byte, (16 ≤ t.toNat ∧ t.toNat ≤ 30) ∧
      (u.toNat < t.toNat → (excfg.codeL u).c1 ≠ (excfg.codeL t).c1)) ∧
    (∀ t : Byte, 16 ≤ t.toNat → (excfg.codeL t).c1 ≠ 0#32) := by
  constructor
  · intro t ht u
    refine ⟨by revert t; decide, fun hlt h => ?_⟩
    have := congrArg (·.extractLsb' 24 8) h
    simp only [excfg_c1_top] at this
    exact absurd hlt (by rw [this]; exact lt_irrefl _)
  · intro t ht h
    have := congrArg (·.extractLsb' 24 8) h
    simp only [excfg_c1_top] at this
    subst this
    exact absurd ht (by decide)

/-- A word for each fan clause; the blower sub-field 4 is above the threshold 3, the sub-field 3 is not. -/
theorem test_witness_FanAndBlowerFields :
    0x40100000#32 &&& excfg.fanMask = excfg.fanPattern 0 ∧ 0x40200000#32 &&& excfg.fanMask = excfg.fanPattern 1 ∧
    0x40300000#32 &&& excfg.fanMask = excfg.fanPattern 2 ∧
    (0x30400000#32 &&& excfg.fanMask ≠ excfg.fanPattern 0 ∧ 0x30400000#32 &&& excfg.fanMask ≠ excfg.fanPattern 1 ∧
      0x30400000#32 &&& excfg.fanMask ≠ excfg.fanPattern 2) ∧
    decodeBlower excfg 0x40300000#32 = true ∧ decodeBlower excfg 0x30400000#32 = false := by decide

/-- Both ends of each class. -/
theorem test_witness_IntervalClasses : 401 ≤ (401#32).toNat ∧ 401 ≤ (0xFFFFFFFF#32).toNat ∧
    (161 ≤ (161#32).toNat ∧ (400#32).toNat ≤ 400) ∧ (81 ≤ (81#32).toNat ∧ (160#32).toNat ≤ 160) ∧
    (0#32).toNat ≤ 80 ∧ (80#32).toNat ≤ 80 := by decide

theorem test_witness_ShortIntervalIsZeroBit : (0#32).toNat ≤ 80 ∧ (80#32).toNat ≤ 80 ∧ 81 ≤ (81#32).toNat ∧
    (81#32).toNat ≤ 160 ∧ 81 ≤ (160#32).toNat ∧ (160#32).toNat ≤ 160 := by decide

/-- Two states with one encoder half and two decoder halves, and the other way round. -/
theorem test_witness_NeitherSideTouchesTheOther : encoderSide (.tick 0#32) = true ∧ encoderSide (.edge 0#32) = false ∧
    mid.encoderPart = { mid with dec := ⟨0#32, 5#5, 2#2, 9#32⟩ }.encoderPart ∧
    mid.decoderPart = State.reset.decoderPart ∧ mid.encoderPart ≠ State.reset.encoderPart := by decide

theorem test_witness_EncoderAndDecoderCommute : encoderSide (.req .legacy 24#8 0#32) = true ∧ encoderSide .getSt = false := by
  decide

/-- A state whose gate is opened by the event, and one that emits no gate effect. -/
theorem test_witness_GateRegisterFollowsEffects :
    (∃ t, exec .ledOn State.reset = .next t ∧ (t.effects.filterMap gateLevel).getLast? = some true) ∧
    (∃ t, exec .getSt State.reset = .next t ∧ (t.effects.filterMap gateLevel).getLast? = none) :=
  ⟨⟨_, rfl, rfl⟩, _, rfl, rfl⟩

/-- An event that programs one interval, in the address phase. -/
theorem test_witness_SetIntervalComesFromTimingTable :
    let s := encState { legacyAt 0#3 0#5 0#4 with addressSent := false, commReady := false } frameH1 false
    ∃ t, exec (.tick 1100#32) s = .next t ∧ symbolsIn t.effects = [Config.board.tt.legacyStart] := ⟨_, rfl, rfl⟩

/-- A command beginning, and a Legacy and a Modern command ending. -/
theorem test_witness_CommandBeginsAndEndsAsTheRulesSay :
    (∃ t, exec (.req .legacy 24#8 0#32) State.reset = .next t ∧ State.reset.enc.issued = false ∧ t.enc.issued = true) ∧
    (∃ t, exec (.tick 1215#32) (encState (legacyAt 3#3 17#5 5#4) frameH1 true) = .next t ∧ t.enc.issued = false) ∧
    (∃ t, exec (.tick 150#32) (encState (modernAt 3#3 0#5 9#4) frameH2 true) = .next t ∧ t.enc.issued = false) :=
  ⟨⟨_, rfl, rfl, rfl⟩, ⟨_, rfl, rfl⟩, _, rfl, rfl⟩

/-- A frame with the machine's own address, handed off, is reported. -/
theorem test_witness_OnlyValidFramesAreReported :
    ∃ t x y z, exec (.edge 100#32) (decState ⟨0#32, 31#5, 3#2, 113#32⟩ ⟨Config.board.addrL, 0#32, 0#32, 0#32⟩) = .next t ∧
      Effect.report x y z ∈ t.effects := by
  rcases edgeWith_cases Config.board 100#32 (decState ⟨0#32, 31#5, 3#2, 113#32⟩ ⟨Config.board.addrL, 0#32, 0#32, 0#32⟩) with
    h | h | h | h | h
  · exact absurd h.1 (by decide)
  · exact absurd h.2.1 (by decide)
  · exact absurd rfl h.2.2.1
  · refine ⟨_, decodeTemp Config.board 0#32, decodeFan Config.board 0#32, decodeBlower Config.board 0#32,
      (exec_eq _ _).trans (congrArg _ h.2.2.2.2), ?_⟩
    exact List.mem_singleton.2 rfl
  · exact absurd rfl h.2.2.2.1

/-- A frame just issued, for Legacy, and for the first, second and tenth Modern frame; 116 and 51 TICKs after the guard. -/
theorem test_witness_FrameIsSentWhole :
    let fresh (e : Enc) : Enc := { e with addressSent := false, commReady := false }
    (∀ e ∈ [fresh (legacyAt 0#3 0#5 0#4), fresh (modernAt 0#3 0#5 0#4), fresh (modernAt 0#3 0#5 1#4),
        fresh (modernAt 0#3 0#5 9#4)],
      e.issued = true ∧ e.addressSent = false ∧ e.commReady = false ∧ e.bitIndex = 0#5 ∧ e.wordIndex = 0#3 ∧
      e.frameLenBits = frameBits e.variant ∧
      (List.replicate (e.frameLenBits.toNat + 3) 1100#32).length = e.frameLenBits.toNat + 3 ∧
      (∀ now ∈ List.replicate (e.frameLenBits.toNat + 3) 1100#32, 100 ≤ (now - e.issuedAtTick).toNat)) := by
  intro fresh e he
  have : 100 ≤ (1100#32 - e.issuedAtTick).toNat := by revert e; decide
  refine ⟨?_, ?_, ?_, ?_, ?_, ?_, List.length_replicate, fun now h => List.eq_of_mem_replicate h ▸ this⟩
  all_goals revert e; decide

/-- A supported request, and handled TICKs after it, for each variant. -/
theorem test_witness_CommandTakesItsExactTicks : 24#8 ∈ tempSet .legacy ∧ 20#8 ∈ tempSet .modern ∧
    AllHandled excfg [1100#32, 1101#32] (eventWith excfg (.req .legacy 24#8 1000#32) State.reset) ∧
    AllHandled excfg [100#32, 101#32] (eventWith excfg (.req .modern 20#8 0#32) State.reset) :=
  ⟨by decide, by decide, ⟨by decide, by decide, trivial⟩, by decide, by decide, trivial⟩

/-- EXCFG meets R46 whole, and every period fits the operand (its ratio is 1): those on both sides of 80, 160 and 400 too. -/
theorem test_witness_ConvertedPeriodsFallInTheirClasses : SourceClassTiming excfg ∧ excfg.ratioPositive = true ∧
    ∀ p : Half, ceilTicks excfg p < 2 ^ 32 := by
  refine ⟨⟨⟨by decide, by decide, by decide, by decide, by decide, by decide⟩, by decide⟩, by decide, fun p => ?_⟩
  show (1 * p.toNat + (1 - 1)) / 1 < 2 ^ 32
  have := p.isLt
  omega

/-- R77: `SYMBOLS` gives k EDGEs for k symbols, the last period unmeasured; rounding is up (ratio 1/2, 91 gives 46). -/
theorem test_pseudo_symbols :
    pseudoSymbols excfg 100000#32 [⟨520#16, 340#16⟩, ⟨170#16, 45#16⟩] = [.edge 100000#32, .edge 520#32] ∧
    pseudoSymbols excfg 100000#32 [] = [] ∧ edgeOperand { excfg with rxPerTxDen := 2 } 91#16 = 46#32 := by decide

/-- Two long intervals and 112 data intervals at the ends of the data range. -/
theorem test_witness_CleanLegacyFrameIsAssembled :
    let data := List.replicate 56 0#32 ++ List.replicate 56 400#32
    State.reset.dec.edgeCount = 0#32 ∧ 400 < (401#32).toNat ∧ data.length = 112 ∧ (∀ e ∈ data, e.toNat ≤ 400) := by
  refine ⟨rfl, by decide, by simp, fun e he => ?_⟩
  rcases List.mem_append.1 he with h | h <;> rw [List.eq_of_mem_replicate h] <;> decide

/-- EXCFG meets R46 and has distinct codes; 116 TICKs at distance 100 from the request. -/
theorem test_witness_LegacyRoundTrip : DecodableTiming excfg ∧ DistinctCodes excfg ∧ 16#8 ∈ tempRange ∧ 30#8 ∈ tempRange ∧
    State.reset.dec.edgeCount = 0#32 ∧ 400 < (401#32).toNat ∧ (List.replicate 116 1100#32).length = 116 ∧
    (∀ n ∈ List.replicate 116 1100#32, 100 ≤ (n - 1000#32).toNat) := by
  refine ⟨⟨by decide, by decide, by decide, by decide, by decide, by decide⟩, excfg_distinct, by decide, by decide, rfl,
    by decide, by simp, fun n h => ?_⟩
  rw [List.eq_of_mem_replicate h]
  decide

end Sys2Proof.Tests
end

section
/-! PROOFS. The state (10_state.md): what a step and each side's events do, and the statements on the invariants of R36,
the two halves of the block (R35), the gate register (R22), the repeat flag (R19), the life of a command (R11) and `LAST`
(R36.4). -/
namespace Sys2Proof.Machine

/-! ### One step -/

/-- A step answers the same state, answers `NAK`, or is the event of the word it takes off the stream (R65, R178, R181). -/
theorem step_cases {s t : State} (h : step s = .next t) :
    (s.stream = [] ∧ t = s) ∨
    ∃ w rest, s.stream = w :: rest ∧
      (t = State.nak { s with stream := rest } ∨
        ∃ i, decode w = .ok i ∧ t = eventWith Config.board i { s with stream := rest }) := by
  unfold step at h
  split at h
  next hs =>
    cases h
    exact .inl ⟨hs, rfl⟩
  next w rest hs =>
    refine .inr ⟨w, rest, hs, ?_⟩
    split at h
    next i hi =>
      rw [exec_eq] at h
      cases h
      exact .inr ⟨i, hi, rfl⟩
    next =>
      cases h
      exact .inl rfl

/-- What `exec` answers is the event's next state at the machine's own configuration. -/
theorem eq_eventWith_of_exec {i : Instr} {s t : State} (h : exec i s = .next t) : t = eventWith Config.board i s := by
  rw [exec_eq] at h
  cases h
  rfl

/-- REQ issues the frame and answers `OK`, or answers `FAIL` and changes nothing else (R91, R97). -/
theorem reqWith_cases (c : Config) (v : Variant) (temp : Byte) (now : Ticks) (s : State) :
    (temp ∈ tempSet v ∧ reqWith c v temp now s = { s with
      enc := { s.enc with
        issued := true, addressSent := false, commReady := false, variant := v, frameLenBits := frameBits v,
        bitIndex := 0#5, wordIndex := 0#3, repeatCount := 0#4, issuedAtTick := now, currentTemp := temp }
      f := loadFrame c temp v s.f
      response := some ⟨.ok, 0#11⟩
      effects := [] }) ∨
    (temp ∉ tempSet v ∧ reqWith c v temp now s = { s with response := some ⟨.fail, 0#11⟩, effects := [] }) := by
  unfold reqWith tempSupported
  by_cases ht : temp ∈ tempSet v
  · rw [if_pos (List.contains_iff_mem.2 ht)]
    exact .inl ⟨ht, rfl⟩
  · rw [if_neg (mt List.contains_iff_mem.1 ht)]
    exact .inr ⟨ht, rfl⟩

/-- The frame-complete phase is the one left when no bit of the frame remains (R23, R115). -/
theorem phase_eq_frameComplete {e : Enc} (hi : e.issued = true) (ha : e.addressSent = true) (hc : e.commReady = true)
    (hb : bitsRemain e = false) : phase e = .frameComplete := by
  simp [phase, hi, ha, hc, hb]

theorem issued_of_tickHandled {e : Enc} {now : Ticks} (h : tickHandled e now = true) : e.issued = true :=
  (Bool.and_eq_true_iff.1 h).1

/-- Everything a TICK can emit, and the gate level it leaves (R113 to R123). -/
theorem tickWith_outputs (c : Config) (now : Ticks) (s : State) :
    ((tickWith c now s).effects = [] ∧ (tickWith c now s).carrierEnable = s.carrierEnable) ∨
    (∃ p o, (tickWith c now s).effects = [.setInterval p o, .carrierOn] ∧ (tickWith c now s).carrierEnable = true) ∨
    (∃ p o, (tickWith c now s).effects = [.setInterval p o] ∧ (tickWith c now s).carrierEnable = s.carrierEnable) ∨
    ((tickWith c now s).effects = [.carrierOff] ∧ (tickWith c now s).carrierEnable = false) ∨
    (∃ p o, (tickWith c now s).effects = [.carrierOff, .setInterval p o] ∧
      (tickWith c now s).carrierEnable = false) := by
  obtain ⟨-, h⟩ | ⟨-, -, h⟩ | ⟨-, -, h⟩ | ⟨-, -, -, h⟩ | ⟨-, -, -, -, h⟩ | ⟨-, -, -, -, h⟩ := tickWith_cases c now s <;>
    rw [h]
  · exact .inl ⟨rfl, rfl⟩
  · exact .inl ⟨rfl, rfl⟩
  · exact .inr (.inl ⟨_, _, rfl, rfl⟩)
  · exact .inl ⟨rfl, rfl⟩
  · exact .inr (.inr (.inl ⟨_, _, rfl, rfl⟩))
  · obtain ⟨-, -, h⟩ | ⟨-, -, -, h⟩ | ⟨-, -, -, h⟩ | ⟨-, h⟩ := frameCompletePhase_cases c now s.begin <;> rw [h]
    · exact .inr (.inr (.inr (.inl ⟨rfl, rfl⟩)))
    · exact .inr (.inr (.inr (.inr ⟨_, _, rfl, rfl⟩)))
    · exact .inr (.inr (.inr (.inl ⟨rfl, rfl⟩)))
    · exact .inr (.inr (.inr (.inl ⟨rfl, rfl⟩)))

/-! ### The invariants of R36 -/

/-- The repeat count of the last frame of a command (R18): the last of the 6 Legacy and of the 10 Modern frames. -/
def lastRepeat : Variant → Nat
  | .legacy => 5
  | .modern => 9

/-- Inside a word the bit index is below the word's width (R16). -/
theorem State.Inv.bitIndex_lt {s : State} (h : s.Inv) : s.enc.bitIndex.toNat < wordBits s.enc.variant := by
  have hm := h.modernBitIndex
  cases hv : s.enc.variant with
  | legacy => exact s.enc.bitIndex.isLt
  | modern => exact Nat.lt_succ_of_le (hm hv)

/-- The position moves on by one bit and stays inside a word (R118). -/
theorem advanceBit_position {e : Enc} (hb : e.bitIndex.toNat < wordBits e.variant) (hw : e.wordIndex.toNat ≤ 3) :
    totalBits (advanceBit e) = totalBits e + 1 ∧ (advanceBit e).bitIndex.toNat < wordBits e.variant := by
  have hle : wordBits e.variant ≤ 32 := by cases e.variant <;> decide
  unfold advanceBit totalBits
  split
  next hend =>
    have hw' : (e.wordIndex + 1#3).toNat = e.wordIndex.toNat + 1 := BitVec.toNat_add_of_lt (by simp; omega)
    simp only [hw', Nat.succ_mul, BitVec.toNat_ofNat]
    omega
  next hmid =>
    have hb' : (e.bitIndex + 1#5).toNat = e.bitIndex.toNat + 1 := BitVec.toNat_add_of_lt (by simp; omega)
    simp only [hb']
    omega

/-- No word beyond the fourth is reached while the position is at most the frame length (R17, R51). -/
theorem wordIndex_le_of_totalBits_le {e : Enc} (h : totalBits e ≤ (frameBits e.variant).toNat) :
    e.wordIndex.toNat ≤ 3 := by
  unfold totalBits at h
  cases hv : e.variant <;> simp only [hv, wordBits, frameBits, BitVec.toNat_ofNat] at h <;> omega

/-- An event that leaves `ENC` keeps the invariants if it keeps the unwritten accumulator bits 0. -/
theorem State.Inv.of_enc_eq {s t : State} (h : s.Inv) (he : t.enc = s.enc)
    (hacc : ∀ k, k ≤ 31 - t.dec.bitIndex.toNat → t.dec.accumulatingWord.getLsbD k = false) : t.Inv := by
  cases t
  cases he
  exact { h with accTail := hacc }

/-- The invariants speak of `ENC` and `DEC` only. -/
theorem State.Inv.of_enc_dec_eq {s t : State} (h : s.Inv) (he : t.enc = s.enc) (hd : t.dec = s.dec) : t.Inv :=
  h.of_enc_eq he (hd ▸ h.accTail)

/-- A frame just issued meets the invariants (R92, R122): its length is the variant's and its position 0. -/
theorem State.Inv.of_justIssued {s t : State} (h : s.Inv) (hd : t.dec = s.dec) (hi : t.enc.issued = true)
    (hl : t.enc.frameLenBits = frameBits t.enc.variant) (hc : t.enc.commReady = false)
    (hb : t.enc.bitIndex = 0#5) (hw : t.enc.wordIndex = 0#3)
    (hr : t.enc.repeatCount.toNat ≤ lastRepeat t.enc.variant) (ht : t.enc.currentTemp ∈ tempSet t.enc.variant) :
    t.Inv where
  frameLen := by rw [hl]; cases t.enc.variant <;> decide
  frameLenFixed _ := hl
  notPast _ := by simp [totalBits, hb, hw]
  idleClear hi' := by simp [hi] at hi'
  wordIndexLe := by simp [hw]
  modernBitIndex _ := by simp [hb]
  repeatCountLe := hr
  freshPosition := ⟨fun _ => hc, fun _ => ⟨hb, hw⟩⟩
  tempSupported _ := ht
  accTail := hd ▸ h.accTail

/-- REQ: a supported temperature is a fresh start, any other changes neither `ENC` nor `DEC`. -/
theorem inv_reqWith {s : State} (h : s.Inv) (c : Config) (v : Variant) (temp : Byte) (now : Ticks) :
    (reqWith c v temp now s).Inv := by
  obtain ⟨ht, heq⟩ | ⟨-, heq⟩ := reqWith_cases c v temp now s <;> rw [heq]
  · exact h.of_justIssued rfl rfl rfl rfl rfl rfl (Nat.zero_le _) ht
  · exact h.of_enc_dec_eq rfl rfl

/-- The address phase is the first of a frame, before any position (R113). -/
theorem inv_addressPhase {s : State} (h : s.Inv) (c : Config) : (addressPhase c s).Inv :=
  { h with freshPosition := ⟨nofun, h.freshPosition.2⟩ }

/-- The comm-ready phase comes after the address phase (R114). -/
theorem inv_commReadyPhase {s : State} (h : s.Inv) (ha : s.enc.addressSent = true) : (commReadyPhase s).Inv :=
  { h with freshPosition := ⟨fun hf => absurd (ha.symm.trans hf) nofun, nofun⟩ }

/-- The bit phase moves the position on by one, and bits remained (R116, R118). -/
theorem inv_bitPhase {s : State} (h : s.Inv) (c : Config) (hi : s.enc.issued = true) (ha : s.enc.addressSent = true)
    (hc : s.enc.commReady = true) (hb : bitsRemain s.enc = true) : (bitPhase c s).Inv := by
  obtain ⟨htotal, hlt⟩ := advanceBit_position h.bitIndex_lt h.wordIndexLe
  have hle : totalBits (advanceBit s.enc) ≤ s.enc.frameLenBits.toNat := htotal ▸ of_decide_eq_true hb
  have hword := wordIndex_le_of_totalBits_le (e := advanceBit s.enc)
  rw [bitPhase_eq]
  rw [advanceBit_eq] at hlt hle hword ⊢
  exact
    { h with
      notPast := fun _ => hle
      idleClear := fun hf => absurd (hi.symm.trans hf) nofun
      wordIndexLe := hword (h.frameLenFixed hi ▸ hle)
      modernBitIndex := fun hv => Nat.le_of_lt_succ (hlt.trans_eq (congrArg wordBits hv))
      freshPosition := ⟨fun hf => absurd (ha.symm.trans hf) nofun, fun hf => absurd (hc.symm.trans hf) nofun⟩ }

/-- The frame-complete phase issues the next frame with one repeat more, or returns to Idle (R119 to R123). -/
theorem inv_frameCompletePhase {s : State} (h : s.Inv) (c : Config) (now : Ticks) (hi : s.enc.issued = true)
    (ha : s.enc.addressSent = true) : (frameCompletePhase c now s).Inv := by
  have hrep : ∀ n, s.enc.repeatCount.toNat < n → (s.enc.repeatCount + 1#4).toNat ≤ n := fun n hn =>
    (BitVec.toNat_add _ _).trans_le ((Nat.mod_le _ _).trans hn)
  have htemp := h.tempSupported hi
  obtain ⟨hv, hr, heq⟩ | ⟨hv, hr, -, heq⟩ | ⟨hv, hr, -, heq⟩ | ⟨-, heq⟩ := frameCompletePhase_cases c now s <;>
    rw [heq]
  · exact h.of_justIssued rfl rfl rfl rfl rfl rfl (hrep _ hr) (hv ▸ htemp)
  · exact h.of_justIssued rfl rfl rfl rfl rfl rfl (hrep _ hr) (hv ▸ htemp)
  · exact h.of_justIssued rfl rfl rfl rfl rfl rfl (hrep _ hr) (hv ▸ htemp)
  · exact
      { h with
        frameLenFixed := nofun
        notPast := nofun
        idleClear := fun _ => ⟨rfl, rfl, rfl⟩
        wordIndexLe := Nat.zero_le _
        modernBitIndex := fun _ => Nat.zero_le _
        repeatCountLe := Nat.zero_le _
        freshPosition := ⟨fun hf => absurd (ha.symm.trans hf) nofun, fun _ => ⟨rfl, rfl⟩⟩
        tempSupported := nofun }

/-- TICK keeps the invariants in each of its six branches (R110). -/
theorem inv_tickWith {s : State} (h : s.Inv) (c : Config) (now : Ticks) : (tickWith c now s).Inv := by
  have hbegin : s.begin.Inv := h.of_enc_dec_eq rfl rfl
  obtain ⟨-, heq⟩ | ⟨-, -, heq⟩ | ⟨-, -, heq⟩ | ⟨-, ha, -, heq⟩ | ⟨ht, ha, hc, hb, heq⟩ | ⟨ht, ha, -, -, heq⟩ :=
    tickWith_cases c now s <;> rw [heq]
  · exact hbegin
  · exact hbegin
  · exact inv_addressPhase hbegin c
  · exact inv_commReadyPhase hbegin ha
  · exact inv_bitPhase hbegin c (issued_of_tickHandled ht) ha hc hb
  · exact inv_frameCompletePhase hbegin c now (issued_of_tickHandled ht) ha

/-- Accumulating a bit that does not finalise the word leaves the bits below it 0 (R145). -/
theorem accTail_setAccBit {d : Dec} (hd : ∀ k, k ≤ 31 - d.bitIndex.toNat → d.accumulatingWord.getLsbD k = false)
    (hf : finaliseNow d = false) (b : Bool) (k : Nat) (hk : k ≤ 31 - (d.bitIndex + 1#5).toNat) :
    (setAccBit d.accumulatingWord d.bitIndex b).getLsbD k = false := by
  have hne : d.bitIndex.toNat + 1 ≠ 32 := fun h => by simp [finaliseNow, decWordBits, h] at hf
  have hnext : (d.bitIndex + 1#5).toNat = d.bitIndex.toNat + 1 := BitVec.toNat_add_of_lt (by simp; omega)
  rw [getLsbD_setAccBit _ _ _ _ (by omega), if_neg (by omega)]
  exact hd k (by omega)

/-- EDGE leaves `ENC` alone; it clears the accumulating word or sets its next bit (R143, R145, R147, R148). -/
theorem inv_edgeWith {s : State} (h : s.Inv) (c : Config) (e : Ticks) : (edgeWith c e s).Inv := by
  obtain ⟨-, heq⟩ | ⟨-, hf, heq⟩ | ⟨-, -, -, heq⟩ | ⟨-, -, -, -, heq⟩ | ⟨-, -, -, -, heq⟩ := edgeWith_cases c e s <;>
    rw [heq]
  · exact h.of_enc_eq rfl fun _ _ => BitVec.getLsbD_zero
  · exact h.of_enc_eq rfl (accTail_setAccBit (d := countEdge s.dec) h.accTail hf _)
  · exact h.of_enc_eq rfl fun _ _ => BitVec.getLsbD_zero
  · exact h.of_enc_eq rfl fun _ _ => BitVec.getLsbD_zero
  · exact h.of_enc_eq rfl fun _ _ => BitVec.getLsbD_zero

/-- Every event keeps the invariants of R36, over every configuration. -/
theorem inv_eventWith {s : State} (h : s.Inv) (c : Config) (i : Instr) : (eventWith c i s).Inv := by
  cases i with
  | req v temp now => exact inv_reqWith h c v temp now
  | ledOn | ledOff | getSt => exact h.of_enc_dec_eq rfl rfl
  | tick now => exact inv_tickWith h c now
  | edge e => exact inv_edgeWith h c e

/-- Settles O16: no event, no reserved word and no empty stream breaks the invariants. -/
theorem stepKeepsInvariant : Obligations.StepKeepsInvariant := by
  intro s t h hstep
  obtain ⟨-, rfl⟩ | ⟨w, rest, -, rfl | ⟨i, -, rfl⟩⟩ := step_cases hstep
  · exact h
  · exact h.of_enc_dec_eq rfl rfl
  · exact inv_eventWith (s := { s with stream := rest }) (h.of_enc_dec_eq rfl rfl) Config.board i

/-- Settles O14: reset is written out field by field, so each clause is the definition. -/
theorem resetIsAllZero : Obligations.ResetIsAllZero :=
  ⟨rfl, rfl, rfl, rfl, rfl, rfl, rfl⟩

/-- Settles O15: after reset the block is idle, every field 0. -/
theorem resetMeetsInvariant : Obligations.ResetMeetsInvariant where
  frameLen := .inl rfl
  frameLenFixed := nofun
  notPast := nofun
  idleClear _ := ⟨rfl, rfl, rfl⟩
  wordIndexLe := Nat.zero_le _
  modernBitIndex := nofun
  repeatCountLe := Nat.zero_le _
  freshPosition := ⟨fun _ => rfl, fun _ => ⟨rfl, rfl⟩⟩
  tempSupported := nofun
  accTail _ _ := BitVec.getLsbD_zero

end Sys2Proof.Machine
end

section
/-! PROOFS. The two sides of the block (R35): an event reads and writes its own half only. An event on a state whose other
half was replaced is the event with the other half replaced afterwards; frame and noninterference both follow. -/
namespace Sys2Proof.Machine

/-- The encoder's half, the response and the effects of `s`, with the decoder's half and the event port of `d`. -/
def State.withDecoderOf (s d : State) : State :=
  { s with dec := d.dec, rx := d.rx, last := d.last, stream := d.stream }

/-- The decoder's half, the response and the effects of `s`, with the encoder's half and the event port of `d`. -/
def State.withEncoderOf (s d : State) : State :=
  { s with enc := d.enc, f := d.f, carrierEnable := d.carrierEnable, stream := d.stream }

/-- Every event discards the outputs of the one before it (R8). -/
theorem eventWith_begin (c : Config) (i : Instr) (s : State) : eventWith c i s.begin = eventWith c i s := by
  cases i <;> rfl

/-- Up to outputs, a state with the encoder's half of `s` is `s` with its own decoder's half. -/
theorem begin_eq_of_encoderPart_eq {s s' : State} (h : s.encoderPart = s'.encoderPart) :
    s'.begin = (s.withDecoderOf s').begin := by
  obtain ⟨henc, hf, hgate⟩ : s.enc = s'.enc ∧ s.f = s'.f ∧ s.carrierEnable = s'.carrierEnable := by
    simpa [State.encoderPart] using h
  simp [State.begin, State.withDecoderOf, henc, hf, hgate]

/-- Up to outputs, a state with the decoder's half of `s` is `s` with its own encoder's half. -/
theorem begin_eq_of_decoderPart_eq {s s' : State} (h : s.decoderPart = s'.decoderPart) :
    s'.begin = (s.withEncoderOf s').begin := by
  obtain ⟨hdec, hrx, hlast⟩ : s.dec = s'.dec ∧ s.rx = s'.rx ∧ s.last = s'.last := by
    simpa [State.decoderPart] using h
  simp [State.begin, State.withEncoderOf, hdec, hrx, hlast]

theorem ite_withDecoderOf (p : Prop) [Decidable p] (s t d : State) :
    (if p then s else t).withDecoderOf d = if p then s.withDecoderOf d else t.withDecoderOf d :=
  apply_ite (State.withDecoderOf · d) p s t

theorem ite_withEncoderOf (p : Prop) [Decidable p] (s t d : State) :
    (if p then s else t).withEncoderOf d = if p then s.withEncoderOf d else t.withEncoderOf d :=
  apply_ite (State.withEncoderOf · d) p s t

theorem reqWith_withDecoderOf (c : Config) (v : Variant) (temp : Byte) (now : Ticks) (s d : State) :
    reqWith c v temp now (s.withDecoderOf d) = (reqWith c v temp now s).withDecoderOf d := by
  simp only [reqWith, ite_withDecoderOf]
  rfl

theorem legacyRepeat_withDecoderOf (c : Config) (now : Ticks) (s d : State) :
    legacyRepeat c now (s.withDecoderOf d) = (legacyRepeat c now s).withDecoderOf d := by
  simp only [legacyRepeat, ite_withDecoderOf]
  rfl

theorem modernRepeat_withDecoderOf (c : Config) (now : Ticks) (s d : State) :
    modernRepeat c now (s.withDecoderOf d) = (modernRepeat c now s).withDecoderOf d := by
  simp only [modernRepeat, ite_withDecoderOf]
  rfl

theorem repeatPolicy_withDecoderOf (c : Config) (now : Ticks) (s d : State) :
    repeatPolicy c now (s.withDecoderOf d) = (repeatPolicy c now s).withDecoderOf d := by
  cases hv : s.enc.variant with
  | legacy => simpa [repeatPolicy, State.withDecoderOf, hv] using legacyRepeat_withDecoderOf c now s d
  | modern => simpa [repeatPolicy, State.withDecoderOf, hv] using modernRepeat_withDecoderOf c now s d

theorem frameCompletePhase_withDecoderOf (c : Config) (now : Ticks) (s d : State) :
    frameCompletePhase c now (s.withDecoderOf d) = (frameCompletePhase c now s).withDecoderOf d :=
  repeatPolicy_withDecoderOf c now (s.closeGate.setEnc _) d

theorem tickWith_withDecoderOf (c : Config) (now : Ticks) (s d : State) :
    tickWith c now (s.withDecoderOf d) = (tickWith c now s).withDecoderOf d := by
  simp only [tickWith, ite_withDecoderOf, ← frameCompletePhase_withDecoderOf]
  rfl

theorem interpret_withEncoderOf (c : Config) (s d : State) :
    interpret c (s.withEncoderOf d) = (interpret c s).withEncoderOf d := by
  simp only [interpret, ite_withEncoderOf]
  rfl

theorem handOff_withEncoderOf (c : Config) (s d : State) :
    handOff c (s.withEncoderOf d) = (handOff c s).withEncoderOf d :=
  congrArg (State.setDec · _) (interpret_withEncoderOf c s d)

theorem finaliseWord_withEncoderOf (c : Config) (s d : State) :
    finaliseWord c (s.withEncoderOf d) = (finaliseWord c s).withEncoderOf d := by
  simp only [finaliseWord, ite_withEncoderOf, ← handOff_withEncoderOf]
  rfl

theorem dataEdge_withEncoderOf (c : Config) (bit : Bool) (s d : State) :
    dataEdge c bit (s.withEncoderOf d) = (dataEdge c bit s).withEncoderOf d := by
  simp only [dataEdge, ite_withEncoderOf, ← finaliseWord_withEncoderOf]
  rfl

theorem edgeWith_withEncoderOf (c : Config) (e : Ticks) (s d : State) :
    edgeWith c e (s.withEncoderOf d) = (edgeWith c e s).withEncoderOf d := by
  unfold edgeWith
  cases edgeBit (classifyEdge e) with
  | none => rfl
  | some bit => exact dataEdge_withEncoderOf c bit (s.begin.setDec _) d

/-- An encoder-side event neither reads nor writes the decoder's half (R35). -/
theorem eventWith_withDecoderOf (c : Config) {i : Instr} (hi : encoderSide i = true) (s d : State) :
    eventWith c i (s.withDecoderOf d) = (eventWith c i s).withDecoderOf d := by
  cases i with
  | req v temp now => exact reqWith_withDecoderOf c v temp now s d
  | ledOn | ledOff => rfl
  | tick now => exact tickWith_withDecoderOf c now s d
  | getSt | edge e => cases hi

/-- A decoder-side event neither reads nor writes the encoder's half (R35). -/
theorem eventWith_withEncoderOf (c : Config) {i : Instr} (hi : encoderSide i = false) (s d : State) :
    eventWith c i (s.withEncoderOf d) = (eventWith c i s).withEncoderOf d := by
  cases i with
  | req v temp now | ledOn | ledOff | tick now => cases hi
  | getSt => rfl
  | edge e => exact edgeWith_withEncoderOf c e s d

/-- From states with one encoder's half an encoder-side event gives the same but for the decoder's half (R35). -/
theorem eventWith_of_encoderPart_eq (c : Config) {i : Instr} (hi : encoderSide i = true) {s s' : State}
    (h : s.encoderPart = s'.encoderPart) : eventWith c i s' = (eventWith c i s).withDecoderOf s' := by
  rw [← eventWith_begin, begin_eq_of_encoderPart_eq h, eventWith_begin, eventWith_withDecoderOf c hi]

/-- From states with one decoder's half a decoder-side event gives the same but for the encoder's half (R35). -/
theorem eventWith_of_decoderPart_eq (c : Config) {i : Instr} (hi : encoderSide i = false) {s s' : State}
    (h : s.decoderPart = s'.decoderPart) : eventWith c i s' = (eventWith c i s).withEncoderOf s' := by
  rw [← eventWith_begin, begin_eq_of_decoderPart_eq h, eventWith_begin, eventWith_withEncoderOf c hi]

/-- R35: the encoder's events leave the decoder's half as it is. -/
theorem decoderPart_eventWith (c : Config) {i : Instr} (hi : encoderSide i = true) (s : State) :
    (eventWith c i s).decoderPart = s.decoderPart := by
  rw [eventWith_of_encoderPart_eq c hi rfl]
  rfl

/-- R35: the decoder's events leave the encoder's half as it is. -/
theorem encoderPart_eventWith (c : Config) {i : Instr} (hi : encoderSide i = false) (s : State) :
    (eventWith c i s).encoderPart = s.encoderPart := by
  rw [eventWith_of_decoderPart_eq c hi rfl]
  rfl

/-- No event touches the event port (log 1). -/
theorem stream_eventWith (c : Config) (i : Instr) (s : State) : (eventWith c i s).stream = s.stream := by
  cases hi : encoderSide i
  · rw [eventWith_of_decoderPart_eq c hi rfl]
    rfl
  · rw [eventWith_of_encoderPart_eq c hi rfl]
    rfl

/-- Settles O42: each event is the same event on its own half, with the other half put back. -/
theorem neitherSideTouchesTheOther : Obligations.NeitherSideTouchesTheOther := by
  refine ⟨fun i s => ⟨_, exec_eq i s, stream_eventWith _ i s, fun hi => decoderPart_eventWith _ hi s,
    fun hi => encoderPart_eventWith _ hi s, ?_⟩, fun i s s' hi h => ⟨_, _, exec_eq i s, exec_eq i s', ?_⟩,
    fun i s s' hi h => ⟨_, _, exec_eq i s, exec_eq i s', ?_⟩⟩
  · rintro rfl
    rfl
  · rw [eventWith_of_encoderPart_eq _ hi h]
    exact ⟨rfl, rfl, rfl⟩
  · rw [eventWith_of_decoderPart_eq _ hi h]
    exact ⟨rfl, rfl, rfl⟩

end Sys2Proof.Machine
end

section
/-! PROOFS. What an event does to the gate register (R22), to `issued` (R11) and to `LAST` (R36.4), and that the repeat flag
is read by nothing (R19). -/
namespace Sys2Proof.Machine

/-! ### The gate register -/

/-- The gate register is the level of the last gate effect emitted, `level` if there was none (R22). -/
def State.GateFollows (level : Bool) (t : State) : Prop :=
  t.carrierEnable = match (t.effects.filterMap gateLevel).getLast? with
    | some l => l
    | none => level

theorem gateFollows_reqWith (c : Config) (v : Variant) (temp : Byte) (now : Ticks) (s : State) :
    (reqWith c v temp now s).GateFollows s.carrierEnable := by
  obtain ⟨-, h⟩ | ⟨-, h⟩ := reqWith_cases c v temp now s <;> rw [h] <;> rfl

/-- CarrierOn comes with level 1 and CarrierOff with level 0; SetInterval sets none (R22). -/
theorem gateFollows_tickWith (c : Config) (now : Ticks) (s : State) :
    (tickWith c now s).GateFollows s.carrierEnable := by
  unfold State.GateFollows
  obtain ⟨hfx, hgate⟩ | ⟨p, o, hfx, hgate⟩ | ⟨p, o, hfx, hgate⟩ | ⟨hfx, hgate⟩ | ⟨p, o, hfx, hgate⟩ :=
    tickWith_outputs c now s <;> rw [hfx, hgate] <;> rfl

theorem gateFollows_edgeWith (c : Config) (e : Ticks) (s : State) : (edgeWith c e s).GateFollows s.carrierEnable := by
  obtain ⟨-, h⟩ | ⟨-, -, h⟩ | ⟨-, -, -, h⟩ | ⟨-, -, -, -, h⟩ | ⟨-, -, -, -, h⟩ := edgeWith_cases c e s <;>
    rw [h] <;> rfl

/-- Settles O44, event by event: the effects of each fix the level it leaves. -/
theorem gateRegisterFollowsEffects : Obligations.GateRegisterFollowsEffects := by
  intro i s t h
  obtain rfl := eq_eventWith_of_exec h
  cases i with
  | req v temp now => exact gateFollows_reqWith _ v temp now s
  | ledOn | ledOff | getSt => rfl
  | tick now => exact gateFollows_tickWith _ now s
  | edge e => exact gateFollows_edgeWith _ e s

/-! ### The repeat flag -/

/-- `s` with the repeat flag replaced. -/
def State.withRepeatFlag (s : State) (b : Bool) : State := { s with enc := { s.enc with repeatFlag := b } }

/-- What R19 says of an operation at `s`: whatever the flag is, the operation keeps it, or whatever the flag is, it inverts
it, and nothing else of the result depends on it. -/
def FlagUnread (op : State → State) (s : State) : Prop :=
  ∃ flip : Bool → Bool, (flip = id ∨ flip = not) ∧ ∀ b, op (s.withRepeatFlag b) = (op s).withRepeatFlag (flip b)

theorem FlagUnread.of_kept {op : State → State} {s : State}
    (h : ∀ b, op (s.withRepeatFlag b) = (op s).withRepeatFlag b) : FlagUnread op s :=
  ⟨id, .inl rfl, h⟩

theorem FlagUnread.of_inverted {op : State → State} {s : State}
    (h : ∀ b, op (s.withRepeatFlag b) = (op s).withRepeatFlag !b) : FlagUnread op s :=
  ⟨not, .inr rfl, h⟩

/-- A branch on a condition that does not read the flag. -/
theorem FlagUnread.ite {p : State → Prop} [DecidablePred p] {f g : State → State} {s : State}
    (hp : ∀ b, p (s.withRepeatFlag b) ↔ p s) (hf : FlagUnread f s) (hg : FlagUnread g s) :
    FlagUnread (fun s => if p s then f s else g s) s := by
  by_cases h : p s
  · simpa [FlagUnread, hp, h] using hf
  · simpa [FlagUnread, hp, h] using hg

theorem flagUnread_reqWith (c : Config) (v : Variant) (temp : Byte) (now : Ticks) (s : State) :
    FlagUnread (reqWith c v temp now) s :=
  .ite (fun _ => Iff.rfl) (.of_kept fun _ => rfl) (.of_kept fun _ => rfl)

theorem advanceBit_setRepeatFlag (e : Enc) (b : Bool) :
    advanceBit { e with repeatFlag := b } = { advanceBit e with repeatFlag := b } := by
  unfold advanceBit
  split <;> rfl

theorem flagUnread_bitPhase (c : Config) (s : State) : FlagUnread (bitPhase c) s :=
  .of_kept fun b => congrArg (State.setEnc (s.program _)) (advanceBit_setRepeatFlag s.enc b)

/-- The one operation on the flag: a Legacy re-invocation inverts it (R19, R120). -/
theorem flagUnread_legacyRepeat (c : Config) (now : Ticks) (s : State) : FlagUnread (legacyRepeat c now) s :=
  .ite (fun _ => Iff.rfl) (.of_inverted fun _ => rfl) (.of_kept fun _ => rfl)

theorem flagUnread_modernRepeat (c : Config) (now : Ticks) (s : State) : FlagUnread (modernRepeat c now) s :=
  .ite (fun _ => Iff.rfl) (.ite (fun _ => Iff.rfl) (.of_kept fun _ => rfl) (.of_kept fun _ => rfl))
    (.of_kept fun _ => rfl)

theorem flagUnread_repeatPolicy (c : Config) (now : Ticks) (s : State) : FlagUnread (repeatPolicy c now) s := by
  cases hv : s.enc.variant with
  | legacy => simpa [FlagUnread, repeatPolicy, State.withRepeatFlag, hv] using flagUnread_legacyRepeat c now s
  | modern => simpa [FlagUnread, repeatPolicy, State.withRepeatFlag, hv] using flagUnread_modernRepeat c now s

theorem flagUnread_frameCompletePhase (c : Config) (now : Ticks) (s : State) :
    FlagUnread (frameCompletePhase c now) s :=
  flagUnread_repeatPolicy c now (s.closeGate.setEnc { s.enc with bitIndex := 0#5, wordIndex := 0#3 })

/-- No condition of the state machine reads the flag, and only the frame-complete phase writes it (R110). -/
theorem flagUnread_tickWith (c : Config) (now : Ticks) (s : State) : FlagUnread (tickWith c now) s :=
  .ite (fun _ => Iff.rfl) (.of_kept fun _ => rfl) <|
  .ite (fun _ => Iff.rfl) (.of_kept fun _ => rfl) <|
  .ite (fun _ => Iff.rfl) (.of_kept fun _ => rfl) <|
  .ite (fun _ => Iff.rfl) (.of_kept fun _ => rfl) <|
  .ite (fun _ => Iff.rfl) (flagUnread_bitPhase c s.begin) (flagUnread_frameCompletePhase c now s.begin)

/-- EDGE reads nothing of the encoder's half, so not the flag either (R35). -/
theorem flagUnread_edgeWith (c : Config) (e : Ticks) (s : State) : FlagUnread (edgeWith c e) s :=
  .of_kept fun b => calc
    edgeWith c e (s.withRepeatFlag b) = ((edgeWith c e s).withEncoderOf s).withRepeatFlag b :=
      edgeWith_withEncoderOf c e s (s.withRepeatFlag b)
    _ = (edgeWith c e s).withRepeatFlag b := congrArg (·.withRepeatFlag b) (edgeWith_withEncoderOf c e s s).symm

theorem flagUnread_eventWith (c : Config) (i : Instr) (s : State) : FlagUnread (eventWith c i) s := by
  cases i with
  | req v temp now => exact flagUnread_reqWith c v temp now s
  | ledOn | ledOff | getSt => exact .of_kept fun _ => rfl
  | tick now => exact flagUnread_tickWith c now s
  | edge e => exact flagUnread_edgeWith c e s

/-- Settles O46: both runs apply the same flip to the flag they hold. -/
theorem repeatFlagIsReadByNothing : Obligations.RepeatFlagIsReadByNothing := by
  intro i s b
  obtain ⟨flip, hflip, h⟩ := flagUnread_eventWith Config.board i s
  have ht : (eventWith Config.board i s).enc.repeatFlag = flip s.enc.repeatFlag :=
    congrArg (·.enc.repeatFlag) (h s.enc.repeatFlag)
  refine ⟨_, _, exec_eq i s, (exec_eq i (s.withRepeatFlag b)).trans (congrArg _ (h b)), rfl, ?_⟩
  rw [ht]
  show flip s.enc.repeatFlag = s.enc.repeatFlag ↔ flip b = b
  obtain rfl | rfl := hflip <;> simp

/-! ### The life of a command -/

/-- A TICK ends the command at the end of its last frame, or leaves `issued` as it is (R119, R123). -/
theorem issued_tickWith (c : Config) (now : Ticks) (s : State) :
    (tickWith c now s).enc.issued = s.enc.issued ∨
    (phase s.enc = .frameComplete ∧ lastRepeat s.enc.variant ≤ s.enc.repeatCount.toNat ∧
      (tickWith c now s).enc.issued = false) := by
  obtain ⟨-, h⟩ | ⟨-, -, h⟩ | ⟨-, -, h⟩ | ⟨-, -, -, h⟩ | ⟨-, -, -, -, h⟩ | ⟨ht, ha, hc, hb, h⟩ :=
    tickWith_cases c now s <;> rw [h]
  · exact .inl rfl
  · exact .inl rfl
  · exact .inl rfl
  · exact .inl rfl
  · exact .inl (by rw [bitPhase_eq, State.begin_enc, advanceBit_eq])
  have hi := issued_of_tickHandled ht
  obtain ⟨-, -, h⟩ | ⟨-, -, -, h⟩ | ⟨-, -, -, h⟩ | ⟨hr, h⟩ := frameCompletePhase_cases c now s.begin <;> rw [h]
  · exact .inl hi.symm
  · exact .inl hi.symm
  · exact .inl hi.symm
  · exact .inr ⟨phase_eq_frameComplete hi ha hc hb, hr, rfl⟩

/-- REQ begins a command if it succeeds, and leaves `issued` as it is if not (R91, R97). -/
theorem issued_reqWith (c : Config) (v : Variant) (temp : Byte) (now : Ticks) (s : State) :
    (temp ∈ tempSet v ∧ (reqWith c v temp now s).enc.issued = true ∧
      (reqWith c v temp now s).response = some ⟨.ok, 0#11⟩) ∨
    (reqWith c v temp now s).enc.issued = s.enc.issued := by
  obtain ⟨ht, h⟩ | ⟨-, h⟩ := reqWith_cases c v temp now s <;> rw [h]
  · exact .inl ⟨ht, rfl, rfl⟩
  · exact .inr rfl

/-- The decoder's events leave `ENC` as it is (R35). -/
theorem enc_eventWith (c : Config) {i : Instr} (hi : encoderSide i = false) (s : State) :
    (eventWith c i s).enc = s.enc :=
  congrArg Prod.fst (encoderPart_eventWith c hi s)

/-- An event that changes `issued` is the REQ that begins a command or the TICK that ends it (R11). -/
theorem issued_eventWith_cases (c : Config) (i : Instr) (s : State) :
    (eventWith c i s).enc.issued = s.enc.issued ∨
    ((eventWith c i s).enc.issued = true ∧
      ∃ v temp now, i = .req v temp now ∧ temp ∈ tempSet v ∧ (eventWith c i s).response = some ⟨.ok, 0#11⟩) ∨
    ((eventWith c i s).enc.issued = false ∧
      ∃ now, i = .tick now ∧ phase s.enc = .frameComplete ∧ lastRepeat s.enc.variant ≤ s.enc.repeatCount.toNat) := by
  cases i with
  | req v temp now =>
    obtain ⟨ht, hi, hresp⟩ | h := issued_reqWith c v temp now s
    · exact .inr (.inl ⟨hi, v, temp, now, rfl, ht, hresp⟩)
    · exact .inl h
  | ledOn | ledOff | getSt => exact .inl rfl
  | tick now =>
    obtain h | ⟨hp, hr, hi⟩ := issued_tickWith c now s
    · exact .inl h
    · exact .inr (.inr ⟨hi, now, rfl, hp, hr⟩)
  | edge e => exact .inl (congrArg Enc.issued (enc_eventWith c rfl s))

/-- Settles O48: whichever of the three cases an event is in, the other two are contradictory. -/
theorem commandBeginsAndEndsAsTheRulesSay : Obligations.CommandBeginsAndEndsAsTheRulesSay := by
  intro i s t h
  obtain rfl := eq_eventWith_of_exec h
  obtain hsame | ⟨htrue, hreq⟩ | ⟨hfalse, htick⟩ := issued_eventWith_cases Config.board i s
  · exact ⟨fun h0 h1 => absurd (h1.symm.trans (hsame.trans h0)) nofun,
      fun h1 h0 => absurd (h1.symm.trans (hsame.symm.trans h0)) nofun⟩
  · exact ⟨fun _ _ => hreq, fun _ h0 => absurd (htrue.symm.trans h0) nofun⟩
  · exact ⟨fun _ h1 => absurd (h1.symm.trans hfalse) nofun, fun _ _ => htick⟩

/-! ### Reports and `LAST` -/

/-- The word is finalised at bit index 31 or at the edge that makes the count 114 (R146). -/
theorem finaliseNow_countEdge (d : Dec) :
    finaliseNow (countEdge d) = true ↔ d.bitIndex.toNat = 31 ∨ d.edgeCount + 1#32 = 114#32 := by
  simp [finaliseNow, decWordBits, decEdgeTotal]

/-- The encoder's events leave `LAST` as it is (R35). -/
theorem last_eventWith (c : Config) {i : Instr} (hi : encoderSide i = true) (s : State) :
    (eventWith c i s).last = s.last :=
  congrArg (·.2.2) (decoderPart_eventWith c hi s)

/-- No encoder-side event emits a Report (R168). -/
theorem report_notMem_effects (c : Config) {i : Instr} (hi : encoderSide i = true) (s : State) (x : Byte)
    (y : BitVec 2) (z : Bool) : Effect.report x y z ∉ (eventWith c i s).effects := by
  cases i with
  | req v temp now =>
    obtain ⟨-, h⟩ | ⟨-, h⟩ := reqWith_cases c v temp now s <;> simp [eventWith, h]
  | ledOn | ledOff => simp [eventWith, ledOnWith, ledOffWith]
  | tick now =>
    obtain ⟨h, -⟩ | ⟨p, o, h, -⟩ | ⟨p, o, h, -⟩ | ⟨h, -⟩ | ⟨p, o, h, -⟩ := tickWith_outputs c now s <;>
      simp [eventWith, h]
  | getSt | edge e => cases hi

/-- EDGE reports the new `LAST` at the hand-off of a frame with the address constant, or neither changes `LAST` nor emits
an effect (R146, R148, R161, R166). -/
theorem edgeWith_report_cases (c : Config) (e : Ticks) (s : State) :
    (s.rx.w0 = c.addrL ∧ s.dec.wordSlot = 3#2 ∧ e.toNat ≤ 400 ∧
      (s.dec.bitIndex.toNat = 31 ∨ s.dec.edgeCount + 1#32 = 114#32) ∧
      (edgeWith c e s).effects = [.report (edgeWith c e s).last.temperature (edgeWith c e s).last.fanIndex
        (edgeWith c e s).last.blowerOn]) ∨
    ((edgeWith c e s).last = s.last ∧ (edgeWith c e s).effects = []) := by
  obtain ⟨-, h⟩ | ⟨-, -, h⟩ | ⟨-, -, -, h⟩ | ⟨he, hf, hslot, haddr, h⟩ | ⟨-, -, -, -, h⟩ := edgeWith_cases c e s <;>
    rw [h]
  · exact .inr ⟨rfl, rfl⟩
  · exact .inr ⟨rfl, rfl⟩
  · exact .inr ⟨rfl, rfl⟩
  · exact .inl ⟨haddr, hslot, he, (finaliseNow_countEdge s.dec).1 hf, rfl⟩
  · exact .inr ⟨rfl, rfl⟩

/-- Settles O49: of all events only EDGE can, and of its cases only the accepted hand-off. -/
theorem onlyValidFramesAreReported : Obligations.OnlyValidFramesAreReported := by
  intro i s t h hreport
  obtain rfl := eq_eventWith_of_exec h
  cases hside : encoderSide i with
  | true =>
    obtain hlast | ⟨x, y, z, hmem⟩ := hreport
    · exact absurd (last_eventWith _ hside s) hlast
    · exact absurd hmem (report_notMem_effects _ hside s x y z)
  | false =>
    cases i with
    | req v temp now | ledOn | ledOff | tick now => cases hside
    | getSt => simp [eventWith, getStWith] at hreport
    | edge e =>
      obtain ⟨haddr, hslot, he, hfinal, hfx⟩ | ⟨hlast, hfx⟩ := edgeWith_report_cases Config.board e s
      · exact ⟨haddr, hslot, ⟨e, rfl, he⟩, hfinal, hfx⟩
      · simp [eventWith, hlast, hfx] at hreport

end Sys2Proof.Machine
end

section
/-! PROOFS. The frame buffer and its two views (20_memory.md R41, R42), the step of a presented event (R52), the order of
events of the two sides (R54, R182), and the classes of converted periods (R46). -/
namespace Sys2Proof.Machine

/-! ### The buffer as one value -/

/-- Which word a bit of the 128-bit value belongs to (R41). -/
theorem FrameBuf.getLsbD_bits (b : FrameBuf) (k : Nat) :
    b.bits.getLsbD k =
      if k < 32 then b.w0.getLsbD k
      else if k < 64 then b.w1.getLsbD (k - 32)
      else if k < 96 then b.w2.getLsbD (k - 64)
      else b.w3.getLsbD (k - 96) := by
  have h0 := BitVec.getLsbD_append (x := b.w3 ++ b.w2 ++ b.w1) (y := b.w0) (i := k)
  have h1 := BitVec.getLsbD_append (x := b.w3 ++ b.w2) (y := b.w1) (i := k - 32)
  have h2 := BitVec.getLsbD_append (x := b.w3) (y := b.w2) (i := k - 32 - 32)
  refine h0.trans ?_
  rw [h1, h2]
  grind

/-- Each word, by name, is its 32 bits of the 128-bit value (R41). -/
theorem FrameBuf.extractLsb'_bits (b : FrameBuf) :
    b.bits.extractLsb' 0 32 = b.w0 ∧ b.bits.extractLsb' 32 32 = b.w1 ∧
    b.bits.extractLsb' 64 32 = b.w2 ∧ b.bits.extractLsb' 96 32 = b.w3 := by
  refine ⟨?_, ?_, ?_, ?_⟩ <;> unfold FrameBuf.bits
  · exact BitVec.extractLsb'_append_eq_right
  · rw [BitVec.extractLsb'_append_eq_of_le (by decide)]
    exact BitVec.extractLsb'_append_eq_right
  · rw [BitVec.extractLsb'_append_eq_of_le (by decide), BitVec.extractLsb'_append_eq_of_le (by decide)]
    exact BitVec.extractLsb'_append_eq_right
  · rw [BitVec.extractLsb'_append_eq_of_le (by decide), BitVec.extractLsb'_append_eq_of_le (by decide),
      BitVec.extractLsb'_append_eq_of_le (by decide)]
    exact BitVec.extractLsb'_eq_self

/-- The word view is a slice of the 128-bit value, or absent (R41). -/
theorem FrameBuf.word?_eq (b : FrameBuf) (i : Nat) :
    b.word? i = if i < 4 then some (b.bits.extractLsb' (32 * i) 32) else none := by
  obtain ⟨h0, h1, h2, h3⟩ := b.extractLsb'_bits
  match i with
  | 0 => exact congrArg some h0.symm
  | 1 => exact congrArg some h1.symm
  | 2 => exact congrArg some h2.symm
  | 3 => exact congrArg some h3.symm
  | _ + 4 => rfl

/-- Each of the four words exists, and holds the bits of the 128-bit value from its place on (R41). -/
theorem FrameBuf.exists_word?_eq_some (b : FrameBuf) {i : Nat} (hi : i < 4) :
    ∃ w, b.word? i = some w ∧ ∀ k, 32 * i ≤ k ∧ k < 32 * i + 32 → w.getLsbD (k - 32 * i) = b.bits.getLsbD k := by
  refine ⟨_, (b.word?_eq i).trans (if_pos hi), fun k hk => ?_⟩
  rw [BitVec.getLsbD_extractLsb', decide_eq_true (by omega), Bool.true_and, Nat.add_sub_cancel' hk.1]

/-- A write through the word view changes the 32 bits it names (R41). -/
theorem FrameBuf.getLsbD_bits_setWord (b : FrameBuf) {i : Nat} (v : Word) (hi : i < 4) {k : Nat} (hk : k < 128) :
    (b.setWord i v).bits.getLsbD k =
      if 32 * i ≤ k ∧ k < 32 * i + 32 then v.getLsbD (k - 32 * i) else b.bits.getLsbD k := by
  match i, hi with
  | 0, _ | 1, _ | 2, _ | 3, _ =>
    simp only [FrameBuf.getLsbD_bits, FrameBuf.setWord]
    grind

/-! ### The half-word view -/

theorem lowHalf_extractLsb' {n : Nat} (x : BitVec n) (k : Nat) :
    lowHalf (x.extractLsb' k 32) = x.extractLsb' k 16 := by
  ext i hi
  simp only [lowHalf, BitVec.getElem_extractLsb', BitVec.getLsbD_extractLsb']
  simp [show i < 32 by omega]

theorem highHalf_extractLsb' {n : Nat} (x : BitVec n) (k : Nat) :
    highHalf (x.extractLsb' k 32) = x.extractLsb' (k + 16) 16 := by
  ext i hi
  simp only [highHalf, BitVec.getElem_extractLsb', BitVec.getLsbD_extractLsb']
  simp [show 16 + i < 32 by omega, Nat.add_assoc]

/-- An even half-word is the less significant half of its word (R42). -/
theorem FrameBuf.half?_even (b : FrameBuf) (i : Nat) : b.half? (2 * i) = (b.word? i).map lowHalf := by
  match i with
  | 0 | 1 | 2 | 3 | _ + 4 => rfl

/-- An odd half-word is the more significant half of its word (R42). -/
theorem FrameBuf.half?_odd (b : FrameBuf) (i : Nat) : b.half? (2 * i + 1) = (b.word? i).map highHalf := by
  match i with
  | 0 | 1 | 2 | 3 | _ + 4 => rfl

/-- The half-word view is a slice of the 128-bit value, or absent (R42). -/
theorem FrameBuf.half?_eq (b : FrameBuf) (j : Nat) :
    b.half? j = if j < 8 then some (b.bits.extractLsb' (16 * j) 16) else none := by
  obtain ⟨i, rfl | rfl⟩ := j.even_or_odd'
  · rw [FrameBuf.half?_even, FrameBuf.word?_eq, apply_ite (Option.map lowHalf), Option.map_some, lowHalf_extractLsb']
    grind
  · rw [FrameBuf.half?_odd, FrameBuf.word?_eq, apply_ite (Option.map highHalf), Option.map_some, highHalf_extractLsb']
    grind

/-- A write of an even half-word is a write of its word with the less significant half replaced (R42). -/
theorem FrameBuf.setHalf_even {b : FrameBuf} {i : Nat} {w : Word} (hw : b.word? i = some w) (v : Half) :
    b.setHalf (2 * i) v = b.setWord i (withLowHalf w v) := by
  match i, hw with
  | 0, rfl | 1, rfl | 2, rfl | 3, rfl => rfl

/-- A write of an odd half-word is a write of its word with the more significant half replaced (R42). -/
theorem FrameBuf.setHalf_odd {b : FrameBuf} {i : Nat} {w : Word} (hw : b.word? i = some w) (v : Half) :
    b.setHalf (2 * i + 1) v = b.setWord i (withHighHalf w v) := by
  match i, hw with
  | 0, rfl | 1, rfl | 2, rfl | 3, rfl => rfl

theorem getLsbD_withLowHalf (w : Word) (v : Half) {k : Nat} (hk : k < 32) :
    (withLowHalf w v).getLsbD k = if k < 16 then v.getLsbD k else w.getLsbD k := by
  rw [withLowHalf, BitVec.getLsbD_append, highHalf, BitVec.getLsbD_extractLsb']
  split_ifs with h
  · rfl
  · simp [show k - 16 < 16 by omega, show 16 + (k - 16) = k by omega]

theorem getLsbD_withHighHalf (w : Word) (v : Half) (k : Nat) :
    (withHighHalf w v).getLsbD k = if k < 16 then w.getLsbD k else v.getLsbD (k - 16) := by
  rw [withHighHalf, BitVec.getLsbD_append, lowHalf, BitVec.getLsbD_extractLsb']
  split_ifs with h
  · simp [h]
  · rfl

/-- A write through the half-word view changes the 16 bits it names (R42). -/
theorem FrameBuf.getLsbD_bits_setHalf (b : FrameBuf) {j : Nat} (v : Half) (hj : j < 8) {k : Nat} (hk : k < 128) :
    (b.setHalf j v).bits.getLsbD k =
      if 16 * j ≤ k ∧ k < 16 * j + 16 then v.getLsbD (k - 16 * j) else b.bits.getLsbD k := by
  obtain ⟨i, rfl | rfl⟩ := j.even_or_odd'
  · obtain ⟨w, hw, hbits⟩ := b.exists_word?_eq_some (i := i) (by omega)
    rw [FrameBuf.setHalf_even hw, b.getLsbD_bits_setWord _ (by omega) hk]
    by_cases hin : 32 * i ≤ k ∧ k < 32 * i + 32
    · rw [if_pos hin, getLsbD_withLowHalf _ _ (by omega), hbits k hin]
      grind
    · grind
  · obtain ⟨w, hw, hbits⟩ := b.exists_word?_eq_some (i := i) (by omega)
    rw [FrameBuf.setHalf_odd hw, b.getLsbD_bits_setWord _ (by omega) hk]
    by_cases hin : 32 * i ≤ k ∧ k < 32 * i + 32
    · rw [if_pos hin, getLsbD_withHighHalf, hbits k hin]
      grind
    · grind

/-- Settles O8: each view is a slice of the one value, and each write is a splice into it. -/
theorem viewsOverlayOneBuffer : Obligations.ViewsOverlayOneBuffer :=
  ⟨FrameBuf.word?_eq, FrameBuf.half?_eq, fun b _ v hi _ hk => b.getLsbD_bits_setWord v hi hk,
    fun b _ v hj _ hk => b.getLsbD_bits_setHalf v hj hk⟩

/-! ### Events -/

/-- Settles O9: the arm of `step` for a word that decodes. -/
theorem stepRunsTheDecodedEvent : Obligations.StepRunsTheDecodedEvent := by
  intro s w rest i hs hw
  simp only [step, hs, hw]

/-- Settles O43: the second event finds its own half untouched by the first, so it is the event run first with the other
half put back. -/
theorem encoderAndDecoderCommute : Obligations.EncoderAndDecoderCommute := by
  intro i j s hi hj
  refine ⟨_, _, _, _, exec_eq i s, exec_eq j _, exec_eq j s, exec_eq i _, ?_⟩
  rw [eventWith_of_decoderPart_eq _ hj (decoderPart_eventWith _ hi s).symm,
    eventWith_of_encoderPart_eq _ hi (encoderPart_eventWith _ hj s).symm]
  exact ⟨rfl, rfl, rfl, rfl, rfl, rfl⟩

/-! ### Converted periods -/

/-- The class of an interval by its number of ticks, the short class told from the zero class (R142). -/
theorem classifyEdge_eq (e : Ticks) :
    classifyEdge e =
      if 400 < e.toNat then .resync else if 160 < e.toNat then .one else if 80 < e.toNat then .zero else .short := rfl

/-- The class of a converted period by the exact product `k * p`, without its rounding (R77, R142). -/
theorem classifyEdge_edgeOperand (c : Config) (p : Half) (hc : c.ratioPositive = true) (hp : ceilTicks c p < 2 ^ 32) :
    classifyEdge (edgeOperand c p) =
      if c.rxPerTxNum * p.toNat ≤ 80 * c.rxPerTxDen then .short
      else if c.rxPerTxNum * p.toNat ≤ 160 * c.rxPerTxDen then .zero
      else if c.rxPerTxNum * p.toNat ≤ 400 * c.rxPerTxDen then .one
      else .resync := by
  rw [classifyEdge_eq, toNat_edgeOperand c p hp]
  simp only [← ceilTicks_le_iff c p _ hc]
  grind

/-- Settles O54: rounding up does not move a period across a whole bound, so its class is read off the exact product. -/
theorem convertedPeriodsFallInTheirClasses : Obligations.ConvertedPeriodsFallInTheirClasses := by
  refine ⟨fun c p hratio hfits => ?_, fun c h => ?_⟩
  · rw [classifyEdge_edgeOperand c p hratio hfits]
    split_ifs <;> simp <;> omega
  · obtain ⟨⟨hratio, hstart, hstartFits, honeAbove, honeBelow, hzeroBelow⟩, hzeroAbove⟩ := h
    have hone := (ceilTicks_le_iff c _ _ hratio).2 honeBelow
    have hzero := (ceilTicks_le_iff c _ _ hratio).2 hzeroBelow
    rw [classifyEdge_edgeOperand c _ hratio hstartFits, classifyEdge_edgeOperand c _ hratio (by omega),
      classifyEdge_edgeOperand c _ hratio (by omega)]
    refine ⟨?_, ?_, ?_⟩
    · rw [if_neg (by omega), if_neg (by omega), if_neg (by omega)]
    · rw [if_neg (by omega), if_neg (by omega), if_pos honeBelow]
    · rw [if_neg (by omega), if_pos hzeroBelow]

end Sys2Proof.Machine
end

section
/-! PROOFS. The encodings (30_encoding.md): a word and its fields determine each other, the decoder inverts the encoder
and accepts nothing else (R60 to R65), and the places of the response and effect words (R67, R69). -/
namespace Sys2Proof

/-! ### The event word and its fields -/

/-- The fields of a word are its slices, none of which overlap (R60). -/
theorem fieldsOf_wordOf (f : EventFields) : fieldsOf (wordOf f) = f := by
  obtain ⟨op, v, rsv, temp, t32⟩ := f
  simp only [fieldsOf, EventFields.mk.injEq, wordOf]
  refine ⟨?_, ?_, ?_, ?_, BitVec.extractLsb'_append_eq_right⟩
  · iterate 3 rw [BitVec.extractLsb'_append_eq_of_le (by decide)]
    exact BitVec.extractLsb'_append_eq_left
  · iterate 3 rw [BitVec.extractLsb'_append_eq_of_le (by decide)]
    exact BitVec.extractLsb'_append_eq_right
  · iterate 2 rw [BitVec.extractLsb'_append_eq_of_le (by decide)]
    exact BitVec.extractLsb'_append_eq_right
  · rw [BitVec.extractLsb'_append_eq_of_le (by decide)]
    exact BitVec.extractLsb'_append_eq_right

/-- The slices of a word, put together, leave no bit out (R60). -/
theorem wordOf_fieldsOf (w : EventWord) : wordOf (fieldsOf w) = w := by
  simp only [fieldsOf, wordOf]
  iterate 4 rw [BitVec.extractLsb'_append_extractLsb'_eq_extractLsb' (by rfl)]
  exact BitVec.extractLsb'_eq_self

theorem fieldsOf_eq_iff (w : EventWord) (f : EventFields) : fieldsOf w = f ↔ wordOf f = w :=
  ⟨fun h => by rw [← h, wordOf_fieldsOf], fun h => by rw [← h, fieldsOf_wordOf]⟩

theorem fieldsOf_inj {w w' : EventWord} : fieldsOf w = fieldsOf w' ↔ w = w' := by
  rw [fieldsOf_eq_iff, wordOf_fieldsOf, eq_comm]

/-- A mask is taken field by field (R62). -/
theorem fieldsOf_and (w m : EventWord) :
    fieldsOf (w &&& m) =
      ⟨(fieldsOf w).op &&& (fieldsOf m).op, (fieldsOf w).v &&& (fieldsOf m).v, (fieldsOf w).rsv &&& (fieldsOf m).rsv,
        (fieldsOf w).temp &&& (fieldsOf m).temp, (fieldsOf w).t32 &&& (fieldsOf m).t32⟩ := by
  simp only [fieldsOf, BitVec.extractLsb'_and]

/-! ### The decoder -/

theorem variantBit_variantOf (b : BitVec 1) : variantBit (variantOf b) = b := by
  obtain rfl | rfl := BitVec.eq_zero_or_eq_one b <;> rfl

theorem decodeFields_fieldsOfInstr (i : Instr) : decodeFields (fieldsOfInstr i) = .ok i := by
  cases i with
  | req v temp now => cases v <;> rfl
  | ledOn | ledOff | getSt | tick | edge => rfl

/-- Each branch of the decoder that answers an event has tested every field the event does not use (R62, R64). -/
theorem eq_fieldsOfInstr_of_decodeFields {f : EventFields} {i : Instr} (h : decodeFields f = .ok i) :
    f = fieldsOfInstr i := by
  obtain ⟨op, v, rsv, temp, t32⟩ := f
  simp only [decodeFields, ne_eq, ← not_and_or, ite_not] at h
  -- What remains is one goal per event, in the decoder's order: REQ, TICK, EDGE, LEDON, LEDOFF, GETST.
  split_ifs at h with h07 hrsv h1 hunused h5 h6 ht h2 h3 <;> cases h
  · simp [fieldsOfInstr, variantBit_variantOf, *]
  · simp [fieldsOfInstr, *]
  · simp [fieldsOfInstr, *]
  · simp [fieldsOfInstr, *]
  · simp [fieldsOfInstr, *]
  · have h4 : op = 4#3 := by bv_omega
    simp [fieldsOfInstr, *]

theorem decodeFields_eq_ok_iff (f : EventFields) (i : Instr) : decodeFields f = .ok i ↔ f = fieldsOfInstr i :=
  ⟨eq_fieldsOfInstr_of_decodeFields, fun h => h ▸ decodeFields_fieldsOfInstr i⟩

/-- A word decodes to the event whose encoding it is, and to no other (R62, R64). -/
theorem decode_eq_ok_iff (w : EventWord) (i : Instr) : decode w = .ok i ↔ encode i = w := by
  rw [decode, decodeFields_eq_ok_iff, fieldsOf_eq_iff, encode]

/-- Settles O2: the word keeps the event's fields, and an event's fields pass the decoder's checks. -/
theorem decodeOfEncodeIsIdentity : Obligations.DecodeOfEncodeIsIdentity :=
  fun i _ => (decode_eq_ok_iff (encode i) i).2 rfl

/-- Settles O3: the decoder's checks leave only the fields of the event it answers, and the fields fix the word. -/
theorem eachEventHasOneSpelling : Obligations.EachEventHasOneSpelling :=
  fun w i => (decode_eq_ok_iff w i).1

/-- Settles O1: each example word is the encoding of its event. -/
theorem decodesSpecWords : Obligations.DecodesSpecWords := by
  refine ⟨?_, ?_, ?_, ?_, ?_, ?_, ?_, ?_⟩ <;> exact (decode_eq_ok_iff _ _).2 rfl

/-! ### The words that are events -/

theorem wellFormed_fieldsOfInstr (i : Instr) : (fieldsOfInstr i).wellFormed = true := by
  cases i <;> rfl

theorem opcode_cases (op : BitVec 3) :
    op = 0#3 ∨ op = 1#3 ∨ op = 2#3 ∨ op = 3#3 ∨ op = 4#3 ∨ op = 5#3 ∨ op = 6#3 ∨ op = 7#3 := by
  bv_omega

/-- Every assigned opcode has an event for each value of the fields it uses (R62). -/
theorem exists_eq_fieldsOfInstr {f : EventFields} (h : f.wellFormed = true) : ∃ i, f = fieldsOfInstr i := by
  obtain ⟨op, v, rsv, temp, t32⟩ := f
  simp only [EventFields.wellFormed, EventFields.opAssigned, EventFields.rsvZero, EventFields.unusedZero,
    Bool.and_eq_true, Bool.or_eq_true, bne_iff_ne, beq_iff_eq] at h
  obtain ⟨⟨⟨h0, h7⟩, rfl⟩, hunused⟩ := h
  obtain rfl | rfl | rfl | rfl | rfl | rfl | rfl | rfl := opcode_cases op
  · exact absurd rfl h0
  · exact ⟨.req (variantOf v) temp t32, by rw [fieldsOfInstr, variantBit_variantOf]⟩
  · obtain ⟨⟨rfl, rfl⟩, rfl⟩ : (v = 0#1 ∧ temp = 0#8) ∧ t32 = 0#32 := by simpa using hunused
    exact ⟨.ledOn, rfl⟩
  · obtain ⟨⟨rfl, rfl⟩, rfl⟩ : (v = 0#1 ∧ temp = 0#8) ∧ t32 = 0#32 := by simpa using hunused
    exact ⟨.ledOff, rfl⟩
  · obtain ⟨⟨rfl, rfl⟩, rfl⟩ : (v = 0#1 ∧ temp = 0#8) ∧ t32 = 0#32 := by simpa using hunused
    exact ⟨.getSt, rfl⟩
  · obtain ⟨rfl, rfl⟩ : v = 0#1 ∧ temp = 0#8 := by simpa using hunused
    exact ⟨.tick t32, rfl⟩
  · obtain ⟨rfl, rfl⟩ : v = 0#1 ∧ temp = 0#8 := by simpa using hunused
    exact ⟨.edge t32, rfl⟩
  · exact absurd rfl h7

/-- Settles O5: the fields that decode are the fields of the events, and those are the well-formed ones. -/
theorem decoderAcceptsWellFormedFieldsOnly : Obligations.DecoderAcceptsWellFormedFieldsOnly := by
  intro w
  simp only [decode, decodeFields_eq_ok_iff]
  exact ⟨fun ⟨i, hi⟩ => hi ▸ wellFormed_fieldsOfInstr i, exists_eq_fieldsOfInstr⟩

/-! ### The opcode map -/

/-- The mask of REQ leaves the variant, the temperature and the time out (R62). -/
theorem fieldsOf_and_reqMask (w : EventWord) :
    fieldsOf (w &&& 0xEF0000000000#48) = ⟨(fieldsOf w).op, 0#1, (fieldsOf w).rsv, 0#8, 0#32⟩ := by
  rw [fieldsOf_and, EventFields.mk.injEq]
  exact ⟨BitVec.and_allOnes, BitVec.and_zero, BitVec.and_allOnes, BitVec.and_zero, BitVec.and_zero⟩

/-- The mask of TICK and EDGE leaves the time out (R62). -/
theorem fieldsOf_and_timeMask (w : EventWord) :
    fieldsOf (w &&& 0xFFFF00000000#48) = { fieldsOf w with t32 := 0#32 } := by
  rw [fieldsOf_and, EventFields.mk.injEq]
  exact ⟨BitVec.and_allOnes, BitVec.and_allOnes, BitVec.and_allOnes, BitVec.and_allOnes, BitVec.and_zero⟩

/-- A row without operands: the mask covers the word, so only the event's one spelling matches (R62). -/
theorem fullMask_iff_decode {i : Instr} {w p : EventWord} (hp : encode i = p) :
    w &&& 0xFFFFFFFFFFFF#48 = p ↔ decode w = .ok i := by
  rw [decode_eq_ok_iff, hp, eq_comm, show w &&& 0xFFFFFFFFFFFF#48 = w from BitVec.and_allOnes]

/-- The variant an event word names is its bit 44 (R61). -/
theorem variantBit_getLsbD (w : EventWord) :
    variantBit (if w.getLsbD 44 then .modern else .legacy) = (fieldsOf w).v := by
  apply BitVec.eq_of_getLsbD_eq
  intro i hi
  obtain rfl : i = 0 := by omega
  simp only [fieldsOf, BitVec.getLsbD_extractLsb', Nat.add_zero]
  cases w.getLsbD 44 <;> rfl

/-- Settles O4: each mask keeps the fields a row fixes, and the event's other fields are read from the word itself. -/
theorem decodeFollowsOpcodeMap : Obligations.DecodeFollowsOpcodeMap := by
  intro w
  refine ⟨?_, fullMask_iff_decode rfl, fullMask_iff_decode rfl, fullMask_iff_decode rfl, ?_, ?_⟩
  · rw [← fieldsOf_inj, fieldsOf_and_reqMask, decode, decodeFields_eq_ok_iff, fieldsOfInstr, variantBit_getLsbD]
    simp [fieldsOf]
  · rw [← fieldsOf_inj, fieldsOf_and_timeMask, decode, decodeFields_eq_ok_iff]
    simp [fieldsOf, fieldsOfInstr]
  · rw [← fieldsOf_inj, fieldsOf_and_timeMask, decode, decodeFields_eq_ok_iff]
    simp [fieldsOf, fieldsOfInstr]

end Sys2Proof

namespace Sys2Proof.Machine

/-- Settles O13: the stream's next word is the encoding, and it decodes to the event. -/
theorem presentedWordRunsNext : Obligations.PresentedWordRunsNext := by
  intro i s
  refine stepRunsTheDecodedEvent _ (encode i) s.stream i ?_ (decodeOfEncodeIsIdentity i ?_)
  · rw [State.withFetchWord, BitVec.ofNat_toNat, BitVec.setWidth_eq]
  · cases i <;> rfl

/-! ### The words the block answers with -/

/-- Settles O6: the three slices of the response word are the three parts it is put together from. -/
theorem responseWordFields : Obligations.ResponseWordFields := by
  intro r
  unfold responseWord
  refine ⟨BitVec.extractLsb'_append_eq_right, ?_, ?_⟩
  · rw [BitVec.extractLsb'_append_eq_of_le (by decide)]
    exact BitVec.extractLsb'_append_eq_right
  · rw [BitVec.extractLsb'_append_eq_of_le (by decide)]
    refine BitVec.extractLsb'_append_eq_left.trans ?_
    cases r.code <;> rfl

/-- The parts of the 11 bits that GETST and Report carry (R68, R69). -/
theorem lastPayload_fields (l : Last) :
    (lastPayload l).getLsbD 10 = l.blowerOn ∧ (lastPayload l).extractLsb' 8 2 = l.fanIndex ∧
    (lastPayload l).extractLsb' 0 8 = l.temperature := by
  unfold lastPayload
  refine ⟨?_, ?_, BitVec.extractLsb'_append_eq_right⟩
  · rw [BitVec.getLsbD_append, if_neg (by decide), BitVec.getLsbD_append, if_neg (by decide)]
    cases l.blowerOn <;> rfl
  · rw [BitVec.extractLsb'_append_eq_of_le (by decide)]
    exact BitVec.extractLsb'_append_eq_right

/-- The low 11 bits of a Report's word are the payload GETST answers with (R69). -/
theorem extractLsb'_effectWord_report (t : Byte) (f : BitVec 2) (b : Bool) {start len : Nat} (h : start + len ≤ 11) :
    (effectWord (.report t f b)).extractLsb' start len = (lastPayload ⟨t, f, b⟩).extractLsb' start len := by
  rw [effectWord, BitVec.extractLsb'_append_eq_of_add_le (by omega), BitVec.extractLsb'_append_eq_of_add_le h]

theorem getLsbD_effectWord_report (t : Byte) (f : BitVec 2) (b : Bool) {i : Nat} (h : i < 11) :
    (effectWord (.report t f b)).getLsbD i = (lastPayload ⟨t, f, b⟩).getLsbD i := by
  rw [effectWord, BitVec.getLsbD_append, if_pos (by omega), BitVec.getLsbD_append, if_pos h]

/-- Settles O7: the kind stands above the 32-bit payload, and a Report's payload is zeros above the bits of `LAST`. -/
theorem effectWordFields : Obligations.EffectWordFields := by
  refine ⟨fun p o => ⟨?_, ?_, BitVec.extractLsb'_append_eq_right⟩, rfl, rfl, fun t f b => ?_⟩
  · rw [effectWord, BitVec.extractLsb'_append_eq_of_le (by decide)]
    exact BitVec.extractLsb'_append_eq_left
  · rw [effectWord, BitVec.extractLsb'_append_eq_of_le (by decide)]
    exact BitVec.extractLsb'_append_eq_right
  obtain ⟨hblower, hfan, htemp⟩ := lastPayload_fields ⟨t, f, b⟩
  refine ⟨BitVec.extractLsb'_append_eq_left, ?_, (getLsbD_effectWord_report t f b (by decide)).trans hblower,
    (extractLsb'_effectWord_report t f b (by decide)).trans hfan,
    (extractLsb'_effectWord_report t f b (by decide)).trans htemp⟩
  rw [effectWord, BitVec.extractLsb'_append_eq_of_add_le (by decide)]
  exact BitVec.extractLsb'_append_eq_left

end Sys2Proof.Machine
end

section
/-! PROOFS. One frame sent whole (41_encoder_tick.md R124, R125): the TICKs of a frame emit its symbols in order. -/
namespace Sys2Proof.Machine

/-! ### The fetched bit is the transmitted bit -/

/-- The fetch reads the frame's bit at the current position (R70, R71, R117). -/
theorem fetchBit_eq (c : Config) (b : FrameBuf) {e : Enc} (hb : e.bitIndex.toNat < wordBits e.variant)
    (hw : e.wordIndex.toNat ≤ 3) : fetchBit c e b = transmittedBit e.variant b (totalBits e) := by
  unfold fetchBit transmittedBit totalBits
  cases hv : e.variant with
  | legacy =>
    have hb' : e.bitIndex.toNat < 32 := by rwa [hv] at hb
    simp only [b.word?_eq, if_pos (show e.wordIndex.toNat < 4 by omega), wordBits, BitVec.getLsbD_extractLsb']
    rw [decide_eq_true (by omega), Bool.true_and]
    congr 1
    omega
  | modern =>
    have hb' : e.bitIndex.toNat < 16 := by rwa [hv] at hb
    simp only [b.half?_eq, if_pos (show e.wordIndex.toNat < 8 by omega),
      if_pos (show e.bitIndex.toNat ≤ 15 by omega), wordBits, BitVec.getLsbD_extractLsb']
    rw [decide_eq_true (by omega), Bool.true_and]
    congr 1
    omega

/-! ### A handled TICK, phase by phase -/

/-- Outside the guard window a TICK of a command in flight is handled (R9, R112). -/
theorem tickHandled_of_le {e : Enc} {now : Ticks} (hi : e.issued = true)
    (hn : 100 ≤ (now - e.issuedAtTick).toNat) : tickHandled e now = true := by
  have hguard : ¬ now - e.issuedAtTick < guardTicks := BitVec.not_lt.2 (BitVec.le_def.2 hn)
  simp [tickHandled, inGuardWindow, hi, hguard]

/-- A handled TICK takes the first phase not yet done (R110). -/
theorem tickWith_of_tickHandled (c : Config) {now : Ticks} {s : State} (h : tickHandled s.enc now = true) :
    tickWith c now s =
      if s.enc.addressSent = false then addressPhase c s.begin
      else if s.enc.commReady = false then commReadyPhase s.begin
      else if bitsRemain s.enc then bitPhase c s.begin
      else frameCompletePhase c now s.begin := by
  obtain ⟨hi, hg⟩ := Bool.and_eq_true_iff.1 h
  rw [tickWith, if_neg (by simp [hi]), if_neg (by simpa using hg)]

theorem tickWith_address (c : Config) {now : Ticks} {s : State} (h : tickHandled s.enc now = true)
    (ha : s.enc.addressSent = false) : tickWith c now s = addressPhase c s.begin := by
  rw [tickWith_of_tickHandled c h, if_pos ha]

theorem tickWith_commReady (c : Config) {now : Ticks} {s : State} (h : tickHandled s.enc now = true)
    (ha : s.enc.addressSent = true) (hc : s.enc.commReady = false) : tickWith c now s = commReadyPhase s.begin := by
  rw [tickWith_of_tickHandled c h, if_neg (by simp [ha]), if_pos hc]

/-- What the end of a frame emits: CarrierOff, and the rest symbol between the frames of a Modern pair (R119, R121). -/
def frameEnd (c : Config) (e : Enc) : List Effect :=
  [.carrierOff] ++
  (if e.variant = .modern ∧ e.repeatCount.toNat < 9 ∧ e.repeatCount.toNat % 2 = 0 then
    [symbolEffect c.tt.modernRest] else [])

theorem repeatEven_iff (e : Enc) : repeatEven e = true ↔ e.repeatCount.toNat % 2 = 0 := by
  simp [repeatEven, BitVec.getLsbD, Nat.testBit_zero]

theorem effects_frameCompletePhase (c : Config) (now : Ticks) (s : State) :
    (frameCompletePhase c now s).effects = s.effects ++ frameEnd c s.enc := by
  have heven := repeatEven_iff s.enc
  unfold frameEnd
  obtain ⟨hv, hr, h⟩ | ⟨hv, hr, he, h⟩ | ⟨hv, hr, he, h⟩ | ⟨hr, h⟩ := frameCompletePhase_cases c now s <;>
    rw [h]
  · simp [hv]
  · rw [if_pos ⟨hv, hr, heven.1 he⟩, ← List.append_assoc]
    rfl
  · rw [if_neg fun hrest => by simp [heven.2 hrest.2.2] at he]
    simp
  · rw [if_neg fun ⟨hv, hlt, _⟩ => by simp [hv] at hr; omega]
    simp

/-! ### The bit phase -/

@[simp] theorem advanceBit_variant (e : Enc) : (advanceBit e).variant = e.variant := by rw [advanceBit_eq]
@[simp] theorem advanceBit_frameLenBits (e : Enc) : (advanceBit e).frameLenBits = e.frameLenBits := by
  rw [advanceBit_eq]
@[simp] theorem advanceBit_issuedAtTick (e : Enc) : (advanceBit e).issuedAtTick = e.issuedAtTick := by
  rw [advanceBit_eq]
@[simp] theorem advanceBit_repeatCount (e : Enc) : (advanceBit e).repeatCount = e.repeatCount := by
  rw [advanceBit_eq]

theorem frameEnd_advanceBit (c : Config) (e : Enc) : frameEnd c (advanceBit e) = frameEnd c e := by
  simp [frameEnd]

/-- A command in flight whose next handled TICK sends a bit or ends the frame (R23). -/
structure SendingBits (e : Enc) : Prop where
  issued : e.issued = true
  addressSent : e.addressSent = true
  commReady : e.commReady = true
  frameLen : e.frameLenBits = frameBits e.variant
  bitIndex_lt : e.bitIndex.toNat < wordBits e.variant

/-- The effect that programs transmitted bit `n` of the frame in `F` (R72, R116). -/
def bitSymbol (c : Config) (s : State) (n : Nat) : Effect :=
  symbolEffect (dataEntry c s.enc.variant (transmittedBit s.enc.variant s.f n))

theorem bitSymbol_bitPhase (c : Config) (s : State) : bitSymbol c (bitPhase c s.begin) = bitSymbol c s := by
  funext n
  simp [bitSymbol, bitPhase_eq]

theorem wordBits_pos (v : Variant) : 0 < wordBits v := by
  cases v <;> decide

theorem SendingBits.advanceBit {e : Enc} (h : SendingBits e) (hw : e.wordIndex.toNat ≤ 3) :
    SendingBits (advanceBit e) := by
  have hlt := (advanceBit_position h.bitIndex_lt hw).2
  rw [advanceBit_eq] at hlt ⊢
  exact { h with bitIndex_lt := hlt }

/-- While bits remain, a handled TICK programs the symbol of the current one and moves on (R116, R118). -/
theorem tickWith_bit (c : Config) {now : Ticks} {s : State} (h : SendingBits s.enc)
    (hn : 100 ≤ (now - s.enc.issuedAtTick).toNat) (hlt : totalBits s.enc < s.enc.frameLenBits.toNat) :
    tickWith c now s = bitPhase c s.begin := by
  rw [tickWith_of_tickHandled c (tickHandled_of_le h.issued hn), if_neg (by simp [h.addressSent]),
    if_neg (by simp [h.commReady]), if_pos (by simpa [bitsRemain] using hlt)]

theorem tickWith_frameComplete (c : Config) {now : Ticks} {s : State} (h : SendingBits s.enc)
    (hn : 100 ≤ (now - s.enc.issuedAtTick).toNat) (heq : totalBits s.enc = s.enc.frameLenBits.toNat) :
    tickWith c now s = frameCompletePhase c now s.begin := by
  rw [tickWith_of_tickHandled c (tickHandled_of_le h.issued hn), if_neg (by simp [h.addressSent]),
    if_neg (by simp [h.commReady]), if_neg (by simp [bitsRemain, heq])]

theorem effects_bitPhase {c : Config} {s : State} (h : SendingBits s.enc) (hw : s.enc.wordIndex.toNat ≤ 3) :
    (bitPhase c s).effects = s.effects ++ [bitSymbol c s (totalBits s.enc)] := by
  rw [bitPhase_eq, fetchBit_eq c s.f h.bitIndex_lt hw]
  rfl

theorem effectsOf_tick_cons (c : Config) (now : Ticks) (rest : List Ticks) (s : State) :
    effectsOf c ((now :: rest).map .tick) s =
      (tickWith c now s).effects ++ effectsOf c (rest.map .tick) (tickWith c now s) := rfl

/-- With `k` bits of the frame left, `k + 1` handled TICKs send them and end the frame (R116, R119). -/
theorem effectsOf_sendingBits (c : Config) {k : Nat} {s : State} {nows : List Ticks} (h : SendingBits s.enc)
    (hk : totalBits s.enc + k = s.enc.frameLenBits.toNat) (hlen : nows.length = k + 1)
    (hnows : ∀ now ∈ nows, 100 ≤ (now - s.enc.issuedAtTick).toNat) :
    effectsOf c (nows.map .tick) s = (List.range' (totalBits s.enc) k).map (bitSymbol c s) ++ frameEnd c s.enc := by
  induction k generalizing s nows with
  | zero =>
    obtain ⟨now, rfl⟩ := List.length_eq_one_iff.1 hlen
    rw [effectsOf_tick_cons, tickWith_frameComplete c h (hnows now List.mem_cons_self) hk, effects_frameCompletePhase]
    exact List.append_nil _
  | succ k ih =>
    obtain ⟨now, rest, rfl⟩ := List.exists_cons_of_length_eq_add_one hlen
    have hw : s.enc.wordIndex.toNat ≤ 3 := wordIndex_le_of_totalBits_le (h.frameLen ▸ by omega)
    have hnext : (bitPhase c s.begin).enc = advanceBit s.enc := rfl
    have hpos : totalBits (bitPhase c s.begin).enc = totalBits s.enc + 1 := (advanceBit_position h.bitIndex_lt hw).1
    have hrest := ih (s := bitPhase c s.begin) (h.advanceBit hw)
      (by rw [hpos, hnext, advanceBit_frameLenBits]; omega) (Nat.succ.inj hlen)
      (by rw [hnext, advanceBit_issuedAtTick]; exact (List.forall_mem_cons.1 hnows).2)
    rw [effectsOf_tick_cons, tickWith_bit c h (hnows now List.mem_cons_self) (by omega),
      effects_bitPhase (s := s.begin) h hw, hrest, hpos, bitSymbol_bitPhase, hnext, frameEnd_advanceBit,
      List.range'_succ]
    rfl

/-- Settles O50: the first TICK opens the frame, the second is silent, the rest send its bits and end it. -/
theorem frameIsSentWhole : Obligations.FrameIsSentWhole := by
  intro c s nows hi ha hc hb hw hl hlen hnows
  obtain ⟨n1, rest, rfl⟩ := List.exists_cons_of_length_eq_add_one hlen
  obtain ⟨n2, rest, rfl⟩ := List.exists_cons_of_length_eq_add_one (Nat.succ.inj hlen)
  simp only [List.forall_mem_cons] at hnows
  obtain ⟨hn1, hn2, hnows⟩ := hnows
  have hopen := tickWith_address c (tickHandled_of_le hi hn1) ha
  have hready := tickWith_commReady (s := addressPhase c s.begin) c (tickHandled_of_le hi hn2) rfl hc
  have hstart : totalBits (commReadyPhase (addressPhase c s.begin).begin).enc = 0 := by
    simp [totalBits, commReadyPhase_eq, addressPhase_eq, hb, hw]
  have hbits : SendingBits (commReadyPhase (addressPhase c s.begin).begin).enc :=
    ⟨hi, rfl, rfl, hl, hb ▸ wordBits_pos s.enc.variant⟩
  have hsent := effectsOf_sendingBits c (k := s.enc.frameLenBits.toNat) hbits (by rw [hstart, Nat.zero_add]; rfl)
    (Nat.succ.inj (Nat.succ.inj hlen)) hnows
  rw [effectsOf_tick_cons, hopen, effectsOf_tick_cons, hready, hsent, hstart, List.range_eq_range',
    List.append_assoc, List.append_assoc]
  rfl

end Sys2Proof.Machine
end

section
/-! PROOFS. The host events (40_host_ops.md): what a request does, supported or not (R91 to R97), the carrier gate and the
status read (R99 to R101), and the frame that `F` holds while a command is in flight (R102). -/
namespace Sys2Proof.Machine

/-! ### The ROM frame -/

/-- The frame invariant reads the encoder's half only. -/
theorem HoldsRomFrame.of_encoderPart_eq {c : Config} {s t : State} (h : HoldsRomFrame c s)
    (ht : t.encoderPart = s.encoderPart) : HoldsRomFrame c t := by
  obtain ⟨henc, hf, -⟩ : t.enc = s.enc ∧ t.f = s.f ∧ t.carrierEnable = s.carrierEnable := by
    simpa [State.encoderPart] using ht
  unfold HoldsRomFrame
  rwa [henc, hf]

/-- Frame population establishes the frame invariant, whatever the buffer held before (R102). -/
theorem holdsRomFrame_of_loadFrame {c : Config} {t : State} {b : FrameBuf}
    (hf : t.f = loadFrame c t.enc.currentTemp t.enc.variant b) : HoldsRomFrame c t := by
  intro _
  cases hv : t.enc.variant with
  | legacy => exact hf.trans (by rw [hv, loadFrame_legacy])
  | modern =>
    rw [hf, hv]
    exact loadFrame_modern_halves c t.enc.currentTemp b

/-- REQ loads the frame of the temperature it stores, or touches neither (R97, R102). -/
theorem holdsRomFrame_reqWith {c : Config} {s : State} (h : HoldsRomFrame c s) (v : Variant) (temp : Byte)
    (now : Ticks) : HoldsRomFrame c (reqWith c v temp now s) := by
  obtain ⟨-, heq⟩ | ⟨-, heq⟩ := reqWith_cases c v temp now s <;> rw [heq]
  · exact holdsRomFrame_of_loadFrame (b := s.f) rfl
  · exact h

/-- Each re-invocation reloads the frame of the stored temperature; the last frame ends the command (R120 to R123). -/
theorem holdsRomFrame_frameCompletePhase (c : Config) (now : Ticks) (s : State) :
    HoldsRomFrame c (frameCompletePhase c now s) := by
  obtain ⟨-, -, heq⟩ | ⟨-, -, -, heq⟩ | ⟨-, -, -, heq⟩ | ⟨-, heq⟩ := frameCompletePhase_cases c now s <;> rw [heq]
  · exact holdsRomFrame_of_loadFrame (b := s.f) rfl
  · exact holdsRomFrame_of_loadFrame (b := s.f) rfl
  · exact holdsRomFrame_of_loadFrame (b := s.f) rfl
  · exact nofun

/-- Before the end of the frame a TICK touches neither `F` nor the variant and temperature (R113 to R118). -/
theorem holdsRomFrame_tickWith {c : Config} {s : State} (h : HoldsRomFrame c s) (now : Ticks) :
    HoldsRomFrame c (tickWith c now s) := by
  obtain ⟨-, heq⟩ | ⟨-, -, heq⟩ | ⟨-, -, heq⟩ | ⟨-, -, -, heq⟩ | ⟨-, -, -, -, heq⟩ | ⟨-, -, -, -, heq⟩ :=
    tickWith_cases c now s <;> rw [heq]
  · exact h
  · exact h
  · exact h
  · exact h
  · rw [bitPhase_eq, State.begin_enc, advanceBit_eq]
    exact h
  · exact holdsRomFrame_frameCompletePhase c now s.begin

/-- Every event keeps the frame invariant, over every configuration. -/
theorem holdsRomFrame_eventWith {c : Config} {s : State} (h : HoldsRomFrame c s) (i : Instr) :
    HoldsRomFrame c (eventWith c i s) := by
  cases i with
  | req v temp now => exact holdsRomFrame_reqWith h v temp now
  | ledOn | ledOff => exact h
  | tick now => exact holdsRomFrame_tickWith h now
  | getSt | edge => exact h.of_encoderPart_eq (encoderPart_eventWith c rfl s)

/-- Settles O18: no event, no reserved word and no empty stream breaks the frame invariant. -/
theorem stepKeepsRomFrame : Obligations.StepKeepsRomFrame := by
  intro s t h hstep
  obtain ⟨-, rfl⟩ | ⟨w, rest, -, rfl | ⟨i, -, rfl⟩⟩ := step_cases hstep
  · exact h
  · exact h.of_encoderPart_eq rfl
  · exact holdsRomFrame_eventWith (s := { s with stream := rest }) (h.of_encoderPart_eq rfl) i

/-- Settles O17: no command is in flight after reset. -/
theorem resetHoldsRomFrame : Obligations.ResetHoldsRomFrame :=
  nofun

/-! ### Requests -/

/-- The supported temperatures, by number (R94). -/
theorem mem_tempSet (v : Variant) (temp : Byte) :
    temp ∈ tempSet v ↔ temp = 0#8 ∨ (temp = 5#8 ∧ v = .legacy) ∨ (16 ≤ temp.toNat ∧ temp.toNat ≤ 30) := by
  cases v <;> simp [tempSet, mem_tempRange]

/-- A supported request restarts the sequencer, loads the frame and answers `OK` (R91, R92, R95). -/
theorem exec_req_supported {v : Variant} {temp : Byte} (ht : temp ∈ tempSet v) (now : Ticks) (s : State) :
    exec (.req v temp now) s = .next { s with
      enc := { s.enc with
        issued := true, addressSent := false, commReady := false, variant := v, frameLenBits := frameBits v,
        bitIndex := 0#5, wordIndex := 0#3, repeatCount := 0#4, issuedAtTick := now, currentTemp := temp }
      f := loadFrame Config.board temp v s.f
      response := some ⟨.ok, 0#11⟩
      effects := [] } := by
  obtain ⟨-, heq⟩ | ⟨hn, -⟩ := reqWith_cases Config.board v temp now s
  · exact (exec_eq _ s).trans (congrArg _ heq)
  · exact absurd ht hn

/-- Settles O19: the temperature is one of the Legacy set, and the loaded frame is the four ROM words. -/
theorem reqLegacyIssuesCommand : Obligations.ReqLegacyIssuesCommand := by
  intro temp now s ht
  have hmem : temp ∈ tempSet .legacy := (mem_tempSet .legacy temp).2 (by simpa using ht)
  rw [exec_req_supported hmem, loadFrame_legacy]
  rfl

/-- Settles O20: the temperature is one of the Modern set, and the buffer is the loaded frame, seen by half-words. -/
theorem reqModernIssuesCommand : Obligations.ReqModernIssuesCommand := by
  intro temp now s ht
  have hmem : temp ∈ tempSet .modern := (mem_tempSet .modern temp).2 (by simpa using ht)
  obtain ⟨haddr, hpayload, hcheck⟩ := loadFrame_modern_halves Config.board temp s.f
  exact ⟨_, exec_req_supported hmem now s, haddr, hpayload, hcheck, loadFrame_modern_rest Config.board temp s.f⟩

/-- Settles O21: the temperature is outside the variant's set. -/
theorem reqUnsupportedFails : Obligations.ReqUnsupportedFails := by
  intro v temp now s ht
  obtain ⟨hmem, -⟩ | ⟨-, heq⟩ := reqWith_cases Config.board v temp now s
  · exact absurd ((mem_tempSet v temp).1 hmem) ht
  · exact (exec_eq _ s).trans (congrArg _ heq)

/-! ### The carrier gate and the status read -/

/-- Settles O22: the gate opens on an event that began with no effects. -/
theorem ledOnOpensGate : Obligations.LedOnOpensGate := fun _ => rfl

/-- Settles O23: the gate closes on an event that began with no effects. -/
theorem ledOffClosesGate : Obligations.LedOffClosesGate := fun _ => rfl

/-- The low 11 bits of the response word are its payload (R67). -/
theorem extractLsb'_responseWord (r : Response) {start len : Nat} (h : start + len ≤ 11) :
    (responseWord r).extractLsb' start len = r.payload.extractLsb' start len := by
  rw [responseWord, BitVec.extractLsb'_append_eq_of_add_le h]

theorem getLsbD_responseWord (r : Response) {i : Nat} (h : i < 11) :
    (responseWord r).getLsbD i = r.payload.getLsbD i := by
  rw [responseWord, BitVec.getLsbD_append, if_pos h]

/-- Settles O24: the code and the zeros are those of any `ACK`, and the payload is the three fields of `LAST`. -/
theorem getStAnswersLastDecoded : Obligations.GetStAnswersLastDecoded := by
  intro s
  obtain ⟨-, hzero, hcode⟩ := responseWordFields ⟨.ack, lastPayload s.last⟩
  obtain ⟨hblower, hfan, htemp⟩ := lastPayload_fields s.last
  exact ⟨⟨.ack, lastPayload s.last⟩, rfl, hcode, hzero, (getLsbD_responseWord _ (by decide)).trans hblower,
    (extractLsb'_responseWord _ (by decide)).trans hfan, (extractLsb'_responseWord _ (by decide)).trans htemp⟩

end Sys2Proof.Machine
end

section
/-! PROOFS. TICK, phase by phase (41_encoder_tick.md R110 to R123): the whole next state each phase answers. -/
namespace Sys2Proof.Machine

theorem exec_tick (now : Ticks) (s : State) : exec (.tick now) s = .next (tickWith Config.board now s) :=
  exec_eq (.tick now) s

/-! ### The TICKs that do nothing -/

theorem tickWith_idle (c : Config) (now : Ticks) {s : State} (h : s.enc.issued = false) :
    tickWith c now s = s.begin :=
  if_pos h

/-- Inside the guard window a TICK is ignored, whatever the phase (R112). -/
theorem tickWith_inGuardWindow (c : Config) {now : Ticks} {s : State} (hi : s.enc.issued = true)
    (hg : inGuardWindow s.enc now = true) : tickWith c now s = s.begin := by
  rw [tickWith, if_neg (by simp [hi]), if_pos hg]

/-- The guard check by numbers: the distance from the issue, modulo 2^32 (R112). -/
theorem inGuardWindow_iff (e : Enc) (now : Ticks) :
    inGuardWindow e now = true ↔ (now.toNat + (2 ^ 32 - e.issuedAtTick.toNat)) % 2 ^ 32 < 100 := by
  rw [inGuardWindow, decide_eq_true_iff, BitVec.lt_def, BitVec.toNat_sub, Nat.add_comm]
  rfl

/-- Settles O25: the first test of TICK is that of Idle. -/
theorem tickInIdleDoesNothing : Obligations.TickInIdleDoesNothing := by
  intro now s hi
  rw [exec_tick, tickWith_idle _ now hi]
  rfl

/-- Settles O26: the second test of TICK is the guard check, before any phase. -/
theorem tickInGuardWindowIgnored : Obligations.TickInGuardWindowIgnored := by
  intro now s hi hn
  rw [exec_tick, tickWith_inGuardWindow _ hi ((inGuardWindow_iff _ _).2 hn)]
  rfl

/-! ### The phases before the first bit -/

/-- Settles O27: the start symbol of the variant, then the gate. -/
theorem tickAddressPhase : Obligations.TickAddressPhase := by
  intro now s hi hn ha
  rw [exec_tick, tickWith_address _ (tickHandled_of_le hi hn) ha, addressPhase_eq, State.begin_enc]
  cases s.enc.variant <;> rfl

/-- Settles O28: only the flag is written. -/
theorem tickCommReadyPhase : Obligations.TickCommReadyPhase := by
  intro now s hi hn ha hc
  rw [exec_tick, tickWith_commReady _ (tickHandled_of_le hi hn) ha hc]
  rfl

/-! ### The bit phase -/

/-- With both opening phases done and a bit left, a handled TICK programs the fetched bit's symbol and moves the position
on; nothing else changes (R115, R116). -/
theorem exec_tick_bit {now : Ticks} {s : State} (h : tickHandled s.enc now = true)
    (ha : s.enc.addressSent = true) (hc : s.enc.commReady = true)
    (hlt : totalBits s.enc < s.enc.frameLenBits.toNat) :
    exec (.tick now) s = .next { s with
      enc := advanceBit s.enc
      response := some ⟨.ack, 0#11⟩
      effects := [symbolEffect (dataEntry Config.board s.enc.variant (fetchBit Config.board s.enc s.f))] } := by
  rw [exec_tick, tickWith_of_tickHandled _ h, if_neg (by simp [ha]), if_neg (by simp [hc]),
    if_pos (by simpa [bitsRemain] using hlt)]
  rfl

/-- Inside a word, the position one bit on is the division of the next bit's number by the word's width (R118). -/
theorem advanceBit_eq_div_mod {e : Enc} (hb : e.bitIndex.toNat < wordBits e.variant) :
    advanceBit e = { e with
      wordIndex := BitVec.ofNat 3 ((totalBits e + 1) / wordBits e.variant)
      bitIndex := BitVec.ofNat 5 ((totalBits e + 1) % wordBits e.variant) } := by
  have hpos := wordBits_pos e.variant
  unfold advanceBit totalBits
  rw [Nat.add_assoc, Nat.mul_comm, Nat.mul_add_mod, Nat.mul_add_div hpos]
  split
  next hend => simp [hend, Nat.div_self hpos, BitVec.ofNat_add]
  next hmid =>
    have hlt : e.bitIndex.toNat + 1 < wordBits e.variant := by omega
    simp [Nat.mod_eq_of_lt hlt, Nat.div_eq_of_lt hlt, BitVec.ofNat_add]

/-- A Modern fetch inside a half-word reads the frame's bit, in every half-word of the buffer (R71, R117). -/
theorem fetchBit_modern (c : Config) (b : FrameBuf) {e : Enc} (hv : e.variant = .modern)
    (hb : e.bitIndex.toNat ≤ 15) : fetchBit c e b = transmittedBit .modern b (totalBits e) := by
  have hw : e.wordIndex.toNat < 8 := e.wordIndex.isLt
  simp only [fetchBit, transmittedBit, totalBits, hv, b.half?_eq, if_pos hw, if_pos hb, wordBits,
    BitVec.getLsbD_extractLsb']
  rw [decide_eq_true (by omega), Bool.true_and]
  congr 1
  omega

theorem symbolEffect_dataEntry_legacy (c : Config) (b : Bool) :
    [symbolEffect (dataEntry c .legacy b)] =
      if b then [.setInterval c.tt.legacyOne.period c.tt.legacyOne.onTime]
      else [.setInterval c.tt.legacyZero.period c.tt.legacyZero.onTime] := by
  cases b <;> rfl

theorem symbolEffect_dataEntry_modern (c : Config) (b : Bool) :
    [symbolEffect (dataEntry c .modern b)] =
      if b then [.setInterval c.tt.modernOne.period c.tt.modernOne.onTime]
      else [.setInterval c.tt.modernZero.period c.tt.modernZero.onTime] := by
  cases b <;> rfl

/-- Settles O29: below 128 the word index names a word, so the fetched bit is the transmitted one. -/
theorem tickLegacyBitPhase : Obligations.TickLegacyBitPhase := by
  intro now s n hi hn ha hc hv hpos hlen hmax
  have htotal : totalBits s.enc = n := by rw [totalBits, hv, hpos, Nat.mul_comm]; rfl
  have hb : s.enc.bitIndex.toNat < wordBits s.enc.variant := hv ▸ s.enc.bitIndex.isLt
  rw [exec_tick_bit (tickHandled_of_le hi hn) ha hc (htotal ▸ hlen), advanceBit_eq_div_mod hb,
    fetchBit_eq _ _ hb (by omega), htotal]
  simp only [hv, symbolEffect_dataEntry_legacy]
  rfl

/-- Settles O30: each half-word index names a half-word, so the fetched bit is the transmitted one. -/
theorem tickModernBitPhase : Obligations.TickModernBitPhase := by
  intro now s n hi hn ha hc hv hbit hpos hlen
  have htotal : totalBits s.enc = n := by rw [totalBits, hv, hpos, Nat.mul_comm]; rfl
  have hb : s.enc.bitIndex.toNat < wordBits s.enc.variant := hv ▸ Nat.lt_succ_of_le hbit
  rw [exec_tick_bit (tickHandled_of_le hi hn) ha hc (htotal ▸ hlen), advanceBit_eq_div_mod hb,
    fetchBit_modern _ _ hv hbit, htotal]
  simp only [hv, symbolEffect_dataEntry_modern]
  rfl

/-- Settles O33: the witnesses are the fetched bit and the advanced position, whatever they are. -/
theorem tickBitPhaseProgramsOneSymbol : Obligations.TickBitPhaseProgramsOneSymbol := by
  intro now s hi hn ha hc hlt
  refine ⟨fetchBit Config.board s.enc s.f, (advanceBit s.enc).wordIndex, (advanceBit s.enc).bitIndex, ?_, ?_⟩
  · rw [exec_tick_bit (tickHandled_of_le hi hn) ha hc hlt, ← advanceBit_eq]
  · show if s.enc.bitIndex.toNat + 1 = wordBits s.enc.variant then _ else _
    unfold advanceBit
    split <;> exact ⟨rfl, rfl⟩

/-! ### The frame-complete phase -/

/-- With both opening phases done and no bit left, a handled TICK ends the frame (R115, R119). -/
theorem exec_tick_frameComplete {now : Ticks} {s : State} (h : tickHandled s.enc now = true)
    (ha : s.enc.addressSent = true) (hc : s.enc.commReady = true)
    (hle : s.enc.frameLenBits.toNat ≤ totalBits s.enc) :
    exec (.tick now) s = .next (frameCompletePhase Config.board now s.begin) := by
  rw [exec_tick, tickWith_of_tickHandled _ h, if_neg (by simp [ha]), if_neg (by simp [hc]),
    if_neg (by simpa [bitsRemain] using hle)]

/-- Settles O31: of the frame-complete cases the two of Legacy are left. -/
theorem tickLegacyFrameComplete : Obligations.TickLegacyFrameComplete := by
  intro now s hi hn ha hc hv hlen
  have hle : s.enc.frameLenBits.toNat ≤ totalBits s.enc := by rwa [totalBits, hv, Nat.mul_comm]
  rw [exec_tick_frameComplete (tickHandled_of_le hi hn) ha hc hle]
  obtain ⟨-, (hr : s.enc.repeatCount.toNat < 5), heq⟩ | ⟨hm, -⟩ | ⟨hm, -⟩ | ⟨hr, heq⟩ :=
    frameCompletePhase_cases Config.board now s.begin
  · simp only [heq, if_pos hr, hi, hv]
    rfl
  · exact absurd (hv.symm.trans hm) nofun
  · exact absurd (hv.symm.trans hm) nofun
  · rw [State.begin_enc, hv] at hr
    rw [heq, if_neg (Nat.not_lt.2 hr)]
    rfl

/-- Settles O32: of the frame-complete cases the three of Modern are left; the buffer is the loaded frame. -/
theorem tickModernFrameComplete : Obligations.TickModernFrameComplete := by
  intro now s hi hn ha hc hv hlen
  have hle : s.enc.frameLenBits.toNat ≤ totalBits s.enc := by rwa [totalBits, hv, Nat.mul_comm]
  rw [exec_tick_frameComplete (tickHandled_of_le hi hn) ha hc hle]
  have heven := repeatEven_iff s.enc
  obtain ⟨haddr, hpayload, hcheck⟩ := loadFrame_modern_halves Config.board s.enc.currentTemp s.f
  have hrest := loadFrame_modern_rest Config.board s.enc.currentTemp s.f
  obtain ⟨hl, -⟩ | ⟨-, (hr : s.enc.repeatCount.toNat < 9), he, heq⟩ |
    ⟨-, (hr : s.enc.repeatCount.toNat < 9), he, heq⟩ | ⟨hr, heq⟩ :=
    frameCompletePhase_cases Config.board now s.begin
  · exact absurd (hv.symm.trans hl) nofun
  · rw [if_pos hr]
    refine ⟨_, ?_, haddr, hpayload, hcheck, hrest⟩
    simp only [heq, if_pos (heven.1 he), hi, hv]
    rfl
  · have hodd : ¬ s.enc.repeatCount.toNat % 2 = 0 := fun h => absurd (he.symm.trans (heven.2 h)) nofun
    rw [if_pos hr]
    refine ⟨_, ?_, haddr, hpayload, hcheck, hrest⟩
    simp only [heq, if_neg hodd, hi, hv]
    rfl
  · rw [State.begin_enc, hv] at hr
    rw [if_neg (Nat.not_lt.2 hr), heq]
    rfl

end Sys2Proof.Machine
end

section
/-! PROOFS. How long a command takes (41_encoder_tick.md R125; R120, R121, R123): what a command in flight still owes, in
handled TICKs and in each kind of effect, falls with every handled TICK by exactly what that TICK pays. -/
namespace Sys2Proof.Machine

/-! ### What is counted -/

/-- What the length of a command is measured in (R125). -/
inductive Measure where
  | ticks
  | symbols
  | gateOns
  | gateOffs

/-- What `n` handled TICKs with the effects `fx` come to. -/
def paid (n : Nat) (fx : List Effect) : Measure → Nat
  | .ticks => n
  | .symbols => (symbolsIn fx).length
  | .gateOns => fx.count .carrierOn
  | .gateOffs => fx.count .carrierOff

theorem symbolsIn_append (fx gx : List Effect) : symbolsIn (fx ++ gx) = symbolsIn fx ++ symbolsIn gx := by
  induction fx with
  | nil => rfl
  | cons e fx ih => cases e <;> simp [symbolsIn, ih]

theorem paid_append (m n : Nat) (fx gx : List Effect) (k : Measure) :
    paid (m + n) (fx ++ gx) k = paid m fx k + paid n gx k := by
  cases k with
  | ticks => rfl
  | symbols => exact (congrArg List.length (symbolsIn_append fx gx)).trans List.length_append
  | gateOns | gateOffs => exact List.count_append

/-! ### What a command owes -/

/-- One whole frame: its two opening TICKs, one for each bit and one for the end (R124). -/
def owedByFrame (v : Variant) : Measure → Nat
  | .ticks => (frameBits v).toNat + 3
  | .symbols => (frameBits v).toNat + 1
  | .gateOns => 1
  | .gateOffs => 1

/-- The rest of the current frame. -/
def owedInFrame (e : Enc) : Measure → Nat
  | .ticks => (!e.addressSent).toNat + (!e.commReady).toNat + (e.frameLenBits.toNat - totalBits e) + 1
  | .symbols => (!e.addressSent).toNat + (e.frameLenBits.toNat - totalBits e)
  | .gateOns => (!e.addressSent).toNat
  | .gateOffs => 1

/-- The frames after the current one (R120, R121). -/
def framesAfter (e : Enc) : Nat := lastRepeat e.variant - e.repeatCount.toNat

/-- The rest symbols from repeat count `r` on: one after each Modern frame of even count below 9 (R121). -/
def owedRests (v : Variant) (r : Nat) : Measure → Nat
  | .symbols =>
    match v with
    | .legacy => 0
    | .modern => (10 - r) / 2
  | _ => 0

/-- Everything a command in flight still owes; in Idle nothing. -/
def owed (e : Enc) (k : Measure) : Nat :=
  if e.issued then
    owedInFrame e k + framesAfter e * owedByFrame e.variant k + owedRests e.variant e.repeatCount.toNat k
  else 0

theorem owed_of_issued {e : Enc} (h : e.issued = true) (k : Measure) :
    owed e k =
      owedInFrame e k + framesAfter e * owedByFrame e.variant k + owedRests e.variant e.repeatCount.toNat k :=
  if_pos h

theorem owed_of_idle {e : Enc} (h : e.issued = false) (k : Measure) : owed e k = 0 :=
  if_neg (by simp [h])

/-- A command in flight owes at least the TICK that ends its frame. -/
theorem owed_ticks_pos {e : Enc} (h : e.issued = true) : 0 < owed e .ticks := by
  rw [owed_of_issued h, owedInFrame]
  omega

/-- A frame as `issue` leaves it, with the position at 0 (R92, R95, R119). -/
structure JustIssued (e : Enc) : Prop where
  issued : e.issued = true
  addressSent : e.addressSent = false
  commReady : e.commReady = false
  frameLen : e.frameLenBits = frameBits e.variant
  bitIndex : e.bitIndex = 0#5
  wordIndex : e.wordIndex = 0#3

/-- A frame just issued owes a whole frame. -/
theorem JustIssued.owedInFrame_eq {e : Enc} (h : JustIssued e) (k : Measure) :
    owedInFrame e k = owedByFrame e.variant k := by
  cases k <;>
    simp [owedInFrame, owedByFrame, totalBits, h.addressSent, h.commReady, h.frameLen, h.bitIndex, h.wordIndex] <;>
    omega

/-! ### Each handled TICK pays what it takes off -/

theorem paid_address (c : Config) {s : State} (hi : s.enc.issued = true) (ha : s.enc.addressSent = false)
    (k : Measure) :
    paid 1 (addressPhase c s.begin).effects k + owed (addressPhase c s.begin).enc k = owed s.enc k := by
  have hi' : (addressPhase c s.begin).enc.issued = true := hi
  rw [owed_of_issued hi, owed_of_issued hi', addressPhase_eq]
  cases k <;> simp [paid, symbolsIn, owedInFrame, owedRests, framesAfter, totalBits, ha] <;> omega

theorem paid_commReady {s : State} (hi : s.enc.issued = true) (hc : s.enc.commReady = false) (k : Measure) :
    paid 1 (commReadyPhase s.begin).effects k + owed (commReadyPhase s.begin).enc k = owed s.enc k := by
  have hi' : (commReadyPhase s.begin).enc.issued = true := hi
  rw [owed_of_issued hi, owed_of_issued hi', commReadyPhase_eq]
  cases k <;> simp [paid, symbolsIn, owedInFrame, owedRests, framesAfter, totalBits, hc]
  omega

@[simp] theorem advanceBit_issued (e : Enc) : (advanceBit e).issued = e.issued := by rw [advanceBit_eq]
@[simp] theorem advanceBit_addressSent (e : Enc) : (advanceBit e).addressSent = e.addressSent := by
  rw [advanceBit_eq]
@[simp] theorem advanceBit_commReady (e : Enc) : (advanceBit e).commReady = e.commReady := by
  rw [advanceBit_eq]

/-- One symbol is programmed and the position is one bit further (R116, R118). -/
theorem paid_bit (c : Config) {s : State} (hi : s.enc.issued = true)
    (hb : s.enc.bitIndex.toNat < wordBits s.enc.variant) (hw : s.enc.wordIndex.toNat ≤ 3)
    (hlt : totalBits s.enc < s.enc.frameLenBits.toNat) (k : Measure) :
    paid 1 (bitPhase c s.begin).effects k + owed (bitPhase c s.begin).enc k = owed s.enc k := by
  have htotal := (advanceBit_position hb hw).1
  have hi' : (bitPhase c s.begin).enc.issued = true := (advanceBit_issued s.enc).trans hi
  rw [owed_of_issued hi, owed_of_issued hi', bitPhase_eq]
  cases k <;> simp [paid, symbolsIn, owedInFrame, owedRests, framesAfter, htotal] <;> omega

/-- The next frame of the command is issued, or the command was at its last frame and ends (R120 to R123). -/
theorem enc_frameCompletePhase (c : Config) (now : Ticks) (s : State) :
    (JustIssued (frameCompletePhase c now s).enc ∧ (frameCompletePhase c now s).enc.variant = s.enc.variant ∧
      s.enc.repeatCount.toNat < lastRepeat s.enc.variant ∧
      (frameCompletePhase c now s).enc.repeatCount.toNat = s.enc.repeatCount.toNat + 1) ∨
    ((frameCompletePhase c now s).enc.issued = false ∧ lastRepeat s.enc.variant ≤ s.enc.repeatCount.toNat) := by
  have hcount : s.enc.repeatCount.toNat < 9 → (s.enc.repeatCount + 1#4).toNat = s.enc.repeatCount.toNat + 1 :=
    fun hr => BitVec.toNat_add_of_lt (by simp; omega)
  obtain ⟨hv, hr, heq⟩ | ⟨hv, hr, -, heq⟩ | ⟨hv, hr, -, heq⟩ | ⟨hr, heq⟩ := frameCompletePhase_cases c now s <;>
    rw [heq]
  · exact .inl ⟨⟨rfl, rfl, rfl, rfl, rfl, rfl⟩, hv.symm, hv ▸ hr, hcount (by omega)⟩
  · exact .inl ⟨⟨rfl, rfl, rfl, rfl, rfl, rfl⟩, hv.symm, hv ▸ hr, hcount hr⟩
  · exact .inl ⟨⟨rfl, rfl, rfl, rfl, rfl, rfl⟩, hv.symm, hv ▸ hr, hcount hr⟩
  · exact .inr ⟨rfl, hr⟩

/-- The end of a frame pays the CarrierOff, and the rest symbol if one is due after this frame (R119, R121). -/
theorem paid_frameEnd (c : Config) (e : Enc) (k : Measure) :
    paid 1 (frameEnd c e) k + owedRests e.variant (e.repeatCount.toNat + 1) k =
      paid 1 [.carrierOff] k + owedRests e.variant e.repeatCount.toNat k := by
  unfold frameEnd
  split
  next hrest =>
    obtain ⟨hv, hr, heven⟩ := hrest
    cases k <;> simp [paid, symbolsIn, symbolEffect, owedRests, hv]
    omega
  next hnone =>
    cases k <;> simp only [List.append_nil, Nat.add_left_cancel_iff, owedRests]
    cases hv : e.variant <;> simp only [hv, true_and] at hnone ⊢
    omega

/-- With its last frame a command owes no rest symbol more (R121). -/
theorem owedRests_last {v : Variant} {r : Nat} (h : lastRepeat v ≤ r) (k : Measure) : owedRests v r k = 0 := by
  cases v <;> cases k <;> simp only [lastRepeat, owedRests] at h ⊢
  omega

/-- The last TICK of a frame pays what the frame still owes, and any rest symbol (R119 to R123). -/
theorem paid_frameComplete (c : Config) (now : Ticks) {s : State} (hi : s.enc.issued = true)
    (ha : s.enc.addressSent = true) (hc : s.enc.commReady = true)
    (hle : s.enc.frameLenBits.toNat ≤ totalBits s.enc) (k : Measure) :
    paid 1 (frameCompletePhase c now s.begin).effects k + owed (frameCompletePhase c now s.begin).enc k =
      owed s.enc k := by
  have hend := paid_frameEnd c s.enc k
  have hframe : owedInFrame s.enc k = paid 1 [.carrierOff] k := by
    cases k <;> simp [owedInFrame, paid, symbolsIn, ha, hc, hle]
  have heffects : (frameCompletePhase c now s.begin).effects = frameEnd c s.enc :=
    effects_frameCompletePhase c now s.begin
  have hcases := enc_frameCompletePhase c now s.begin
  rw [State.begin_enc] at hcases
  rw [owed_of_issued hi, heffects, hframe]
  obtain ⟨hnext, hv, hr, hr'⟩ | ⟨hidle, hlast⟩ := hcases
  · have hframes : framesAfter s.enc = framesAfter (frameCompletePhase c now s.begin).enc + 1 := by
      rw [framesAfter, framesAfter, hv, hr']
      omega
    rw [owed_of_issued hnext.issued, hnext.owedInFrame_eq, hframes, hv, hr', Nat.add_one_mul]
    omega
  · have hframes : framesAfter s.enc = 0 := Nat.sub_eq_zero_of_le hlast
    rw [owedRests_last (Nat.le_succ_of_le hlast), owedRests_last hlast] at hend
    rw [owed_of_idle hidle, hframes, Nat.zero_mul, owedRests_last hlast]
    exact hend

/-! ### Every state of a command -/

/-- The invariants of R36 as far as they speak of the encoder: those of the state with a decoder just reset. -/
def State.EncoderInv (s : State) : Prop := (s.withDecoderOf State.reset).Inv

theorem encoderInv_tickWith {s : State} (h : s.EncoderInv) (c : Config) (now : Ticks) :
    (tickWith c now s).EncoderInv := by
  rw [State.EncoderInv, ← tickWith_withDecoderOf]
  exact inv_tickWith h c now

/-- Every handled TICK takes off what it pays (R110). -/
theorem paid_tickWith (c : Config) {now : Ticks} {s : State} (h : s.EncoderInv)
    (hn : tickHandled s.enc now = true) (k : Measure) :
    paid 1 (tickWith c now s).effects k + owed (tickWith c now s).enc k = owed s.enc k := by
  have hi := issued_of_tickHandled hn
  obtain ⟨hidle, -⟩ | ⟨-, hg, -⟩ | ⟨-, ha, heq⟩ | ⟨-, -, hc, heq⟩ | ⟨-, -, -, hb, heq⟩ | ⟨-, ha, hc, hb, heq⟩ :=
    tickWith_cases c now s
  · exact absurd (hi.symm.trans hidle) nofun
  · simp [tickHandled, hg] at hn
  · exact heq ▸ paid_address c hi ha k
  · exact heq ▸ paid_commReady hi hc k
  · exact heq ▸ paid_bit c hi h.bitIndex_lt h.wordIndexLe (of_decide_eq_true hb) k
  · exact heq ▸ paid_frameComplete c now hi ha hc (Nat.not_lt.1 (of_decide_eq_false hb)) k

/-- What a run of handled TICKs pays and what is owed after it make up what was owed before (R9). -/
theorem paid_run (c : Config) {nows : List Ticks} {s : State} (h : s.EncoderInv) (hn : AllHandled c nows s)
    (k : Measure) :
    paid nows.length (effectsOf c (nows.map .tick) s) k + owed (stateAfter c (nows.map .tick) s).enc k =
      owed s.enc k := by
  induction nows generalizing s with
  | nil => cases k <;> exact Nat.zero_add _
  | cons now rest ih =>
    obtain ⟨hnow, hrest⟩ := hn
    have htail := ih (encoderInv_tickWith h c now) hrest
    rw [effectsOf_tick_cons, List.length_cons, Nat.add_comm rest.length, paid_append, Nat.add_assoc,
      ← paid_tickWith c h hnow k, ← htail]
    rfl

/-- While TICKs are owed, the next can be presented: one at distance 100 from the issue is handled (R112). -/
theorem exists_allHandled (c : Config) {n : Nat} {s : State} (h : s.EncoderInv) (hn : n ≤ owed s.enc .ticks) :
    ∃ nows : List Ticks, nows.length = n ∧ AllHandled c nows s := by
  induction n generalizing s with
  | zero => exact ⟨[], rfl, trivial⟩
  | succ n ih =>
    have hi : s.enc.issued = true := by
      by_contra hidle
      rw [owed_of_idle (by simpa using hidle)] at hn
      omega
    have hnow : tickHandled s.enc (s.enc.issuedAtTick + 100#32) = true := tickHandled_of_le hi (by simp)
    have hpaid : 1 + owed (tickWith c _ s).enc .ticks = owed s.enc .ticks := paid_tickWith c h hnow .ticks
    obtain ⟨nows, hlen, hall⟩ := ih (encoderInv_tickWith h c (s.enc.issuedAtTick + 100#32)) (by omega)
    exact ⟨_ :: nows, congrArg (· + 1) hlen, hnow, hall⟩

/-! ### A whole command -/

/-- A request leaves a frame just issued, with nothing repeated yet (R92, R95). -/
theorem justIssued_reqWith (c : Config) {v : Variant} {temp : Byte} (ht : temp ∈ tempSet v) (now : Ticks)
    (s : State) :
    JustIssued (reqWith c v temp now s).enc ∧ (reqWith c v temp now s).enc.variant = v ∧
      (reqWith c v temp now s).enc.repeatCount = 0#4 ∧ (reqWith c v temp now s).enc.currentTemp = temp := by
  obtain ⟨-, heq⟩ | ⟨hf, -⟩ := reqWith_cases c v temp now s
  · rw [heq]
    exact ⟨⟨rfl, rfl, rfl, rfl, rfl, rfl⟩, rfl, rfl, rfl⟩
  · exact absurd ht hf

theorem encoderInv_reqWith (c : Config) {v : Variant} {temp : Byte} (ht : temp ∈ tempSet v) (now : Ticks)
    (s : State) :
    (reqWith c v temp now s).EncoderInv := by
  obtain ⟨hnew, hv, hr, htemp⟩ := justIssued_reqWith c ht now s
  exact resetMeetsInvariant.of_justIssued rfl hnew.issued hnew.frameLen hnew.commReady hnew.bitIndex hnew.wordIndex
    (by simp [State.withDecoderOf, hr]) (by simpa [State.withDecoderOf, hv, htemp] using ht)

/-- The measures of a whole command, in all its frames (R125). -/
def commandTotal : Variant → Measure → Nat
  | .legacy, .ticks => 696
  | .legacy, .symbols => 684
  | .legacy, .gateOns => 6
  | .legacy, .gateOffs => 6
  | .modern, .ticks => 510
  | .modern, .symbols => 495
  | .modern, .gateOns => 10
  | .modern, .gateOffs => 10

/-- A successful request owes the whole command: 6 Legacy frames, or 10 Modern ones with 5 rests (R120, R121). -/
theorem owed_reqWith (c : Config) {v : Variant} {temp : Byte} (ht : temp ∈ tempSet v) (now : Ticks) (s : State)
    (k : Measure) : owed (reqWith c v temp now s).enc k = commandTotal v k := by
  obtain ⟨hnew, hv, hr, -⟩ := justIssued_reqWith c ht now s
  rw [owed_of_issued hnew.issued, hnew.owedInFrame_eq, framesAfter, hv, hr]
  cases v <;> cases k <;> rfl

/-- Handled TICKs after a request pay no more than the command owes; it ends when they have paid it. -/
theorem handled_after_reqWith (c : Config) {v : Variant} {temp : Byte} (ht : temp ∈ tempSet v) (now : Ticks)
    (s : State) {nows : List Ticks} (hn : AllHandled c nows (reqWith c v temp now s)) :
    nows.length ≤ commandTotal v .ticks ∧
    (stateAfter c (nows.map .tick) (reqWith c v temp now s)).enc.issued =
      decide (nows.length < commandTotal v .ticks) ∧
    (nows.length = commandTotal v .ticks →
      ∀ k, paid nows.length (effectsOf c (nows.map .tick) (reqWith c v temp now s)) k = commandTotal v k) := by
  have hrun : ∀ k, _ = commandTotal v k := fun k =>
    (paid_run c (encoderInv_reqWith c ht now s) hn k).trans (owed_reqWith c ht now s k)
  have hticks : nows.length + owed _ .ticks = _ := hrun .ticks
  cases hi : (stateAfter c (nows.map .tick) (reqWith c v temp now s)).enc.issued with
  | true =>
    have hpos := owed_ticks_pos hi
    exact ⟨by omega, (decide_eq_true (by omega)).symm, by omega⟩
  | false =>
    rw [owed_of_idle hi, Nat.add_zero] at hticks
    refine ⟨hticks.le, (decide_eq_false (by omega)).symm, fun _ k => ?_⟩
    rw [← hrun k, owed_of_idle hi, Nat.add_zero]

/-- Settles O51: the command owes its totals when the request is answered, and the TICKs pay them off. -/
theorem commandTakesItsExactTicks : Obligations.CommandTakesItsExactTicks := by
  intro c s v temp now ht ticks symbols frames start
  have hticks : ticks = commandTotal v .ticks := by cases v <;> rfl
  refine ⟨fun nows hn => ?_, fun k hk => ?_⟩
  · obtain ⟨hle, hissued, hall⟩ := handled_after_reqWith c ht now s hn
    rw [hticks]
    refine ⟨hle, hissued, fun hlen => ?_⟩
    have hpaid := hall hlen
    refine ⟨(hpaid .symbols).trans ?_, (hpaid .gateOns).trans ?_, (hpaid .gateOffs).trans ?_⟩ <;> cases v <;> rfl
  · exact exists_allHandled c (encoderInv_reqWith c ht now s) (owed_reqWith c ht now s .ticks ▸ hticks ▸ hk)

end Sys2Proof.Machine
end

section
/-! PROOFS. EDGE (42_decoder_edge.md R140 to R149): the four things an edge can do, and a clean Legacy frame assembled from
its edges. -/
namespace Sys2Proof.Machine

theorem exec_edge (e : Ticks) (s : State) : exec (.edge e) s = .next (edgeWith Config.board e s) :=
  exec_eq (.edge e) s

/-! ### The classes of an interval -/

/-- Settles O40: the three bounds are tried from the top. -/
theorem intervalClasses : Obligations.IntervalClasses := by
  intro e
  rw [classifyEdge_eq]
  refine ⟨fun h => ?_, fun h => ?_, fun h => ?_, fun h => ?_⟩
  · rw [if_pos (by omega)]
    exact ⟨rfl, rfl⟩
  · rw [if_neg (by omega), if_pos (by omega)]
    exact ⟨rfl, rfl⟩
  · rw [if_neg (by omega), if_neg (by omega), if_pos (by omega)]
    exact ⟨rfl, rfl⟩
  · rw [if_neg (by omega), if_neg (by omega), if_neg (by omega)]
    exact ⟨rfl, rfl⟩

/-- The bit of an interval up to 400 (R142). -/
def dataBit (e : Ticks) : Bool := decide (160 < e.toNat)

/-- The accumulating word with the bit of `e` written at its place (R145). -/
def Dec.wordWith (d : Dec) (e : Ticks) : Word := setAccBit d.accumulatingWord d.bitIndex (dataBit e)

theorem Dec.getLsbD_wordWith (d : Dec) (e : Ticks) (k : Nat) (hk : k < 32) :
    (d.wordWith e).getLsbD k =
      if k = 31 - d.bitIndex.toNat then decide (160 < e.toNat) else d.accumulatingWord.getLsbD k :=
  getLsbD_setAccBit _ _ _ k hk

/-! ### What an edge does, by its class and the decoder's position -/

/-- An interval above 400 drops the partial word and the slot (R143). -/
theorem edgeWith_resync (c : Config) {e : Ticks} (s : State) (he : 400 < e.toNat) :
    edgeWith c e s = { s with
      dec := ⟨0#32, 0#5, 0#2, s.dec.edgeCount + 1#32⟩
      response := some ⟨.ack, 0#11⟩
      effects := [] } := by
  rw [edgeWith, edgeBit_classifyEdge, if_pos he]
  rfl

/-- An interval up to 400 acts through its bit only (R144, R145). -/
theorem edgeWith_data (c : Config) {e : Ticks} (s : State) (he : e.toNat ≤ 400) :
    edgeWith c e s = dataEdge c (dataBit e) (s.begin.setDec (countEdge s.dec)) := by
  rw [edgeWith, edgeBit_classifyEdge, if_neg (Nat.not_lt.2 he)]
  rfl

/-- A bit inside a word, before the last edge of a frame (R145). -/
theorem edgeWith_accumulates (c : Config) {e : Ticks} {s : State} (he : e.toNat ≤ 400)
    (hb : s.dec.bitIndex.toNat < 31) (hn : s.dec.edgeCount + 1#32 ≠ 114#32) :
    edgeWith c e s = { s with
      dec := ⟨s.dec.wordWith e, s.dec.bitIndex + 1#5, s.dec.wordSlot, s.dec.edgeCount + 1#32⟩
      response := some ⟨.ack, 0#11⟩
      effects := [] } := by
  have hf : ¬ finaliseNow (countEdge s.dec) = true := fun h =>
    ((finaliseNow_countEdge s.dec).1 h).elim hb.ne hn
  rw [edgeWith_data c s he, dataEdge, State.setDec_dec, if_neg hf]
  rfl

/-- The last bit of a word that is not the fourth (R146, R147). -/
theorem edgeWith_finalises (c : Config) {e : Ticks} {s : State} (he : e.toNat ≤ 400)
    (hf : s.dec.bitIndex.toNat = 31 ∨ s.dec.edgeCount + 1#32 = 114#32) (hs : s.dec.wordSlot.toNat < 3) :
    edgeWith c e s = { s with
      dec := ⟨0#32, 0#5, s.dec.wordSlot + 1#2, s.dec.edgeCount + 1#32⟩
      rx := s.rx.setWord s.dec.wordSlot.toNat (s.dec.wordWith e)
      response := some ⟨.ack, 0#11⟩
      effects := [] } := by
  have hs' : ¬ s.dec.wordSlot.toNat + 1 = decWords := by
    unfold decWords
    omega
  rw [edgeWith_data c s he, dataEdge, State.setDec_dec, if_pos ((finaliseNow_countEdge s.dec).2 hf), finaliseWord]
  exact if_neg hs'

/-- The last bit of the fourth word: the frame is handed off, and interpreted iff its address fits (R148, R160, R161). -/
theorem edgeWith_handsOff (c : Config) {e : Ticks} {s : State} (he : e.toNat ≤ 400)
    (hf : s.dec.bitIndex.toNat = 31 ∨ s.dec.edgeCount + 1#32 = 114#32) (hs : s.dec.wordSlot.toNat = 3) :
    edgeWith c e s = { s with
      dec := ⟨0#32, 0#5, 0#2, 0#32⟩
      rx := { s.rx with w3 := s.dec.wordWith e }
      last := if s.rx.w0 = c.addrL then decodeFrame c s.rx else s.last
      response := some ⟨.ack, 0#11⟩
      effects :=
        if s.rx.w0 = c.addrL then [.report (decodeTemp c s.rx.w1) (decodeFan c s.rx.w2) (decodeBlower c s.rx.w2)]
        else [] } := by
  have hfinal := (finaliseNow_countEdge s.dec).2 hf
  have hslot : s.dec.wordSlot = 3#2 := BitVec.eq_of_toNat_eq hs
  obtain ⟨hlt, -⟩ | ⟨-, hnot, -⟩ | ⟨-, -, hne, -⟩ | ⟨-, -, -, ha, heq⟩ | ⟨-, -, -, ha, heq⟩ := edgeWith_cases c e s
  · omega
  · exact absurd (hfinal.symm.trans hnot) nofun
  · exact absurd hslot hne
  · rw [heq, if_pos ha, if_pos ha]
    rfl
  · rw [heq, if_neg ha, if_neg ha]
    rfl

/-- Settles O34: a resync keeps only the count. -/
theorem edgeResyncRestartsCapture : Obligations.EdgeResyncRestartsCapture := by
  intro e s he
  rw [exec_edge, edgeWith_resync _ s he]

/-- Settles O35: the accumulator is the word with the new bit. -/
theorem edgeAccumulatesBit : Obligations.EdgeAccumulatesBit := by
  intro e s he hb hn
  refine ⟨s.dec.wordWith e, ?_, s.dec.getLsbD_wordWith e⟩
  rw [exec_edge, edgeWith_accumulates _ he hb hn, BitVec.ofNat_add, BitVec.ofNat_toNat, BitVec.setWidth_eq]

/-- Settles O36: the stored word is the word with the new bit, written through the word view. -/
theorem edgeFinalisesWord : Obligations.EdgeFinalisesWord := by
  intro e s he hf hs
  refine ⟨s.rx.setWord s.dec.wordSlot.toNat (s.dec.wordWith e), s.dec.wordWith e, ?_, s.dec.getLsbD_wordWith e,
    fun j => ?_⟩
  · rw [exec_edge, edgeWith_finalises _ he hf hs, BitVec.ofNat_add, BitVec.ofNat_toNat, BitVec.setWidth_eq]
  · split_ifs with hj
    · rw [hj, FrameBuf.word?_setWord_same _ _ _ (by omega)]
    · rw [FrameBuf.word?_setWord_other _ _ _ _ hj]

/-- Settles O37: the stored word is the word with the new bit, and the decoded values do not depend on it (R169). -/
theorem edgeHandsOffFrame : Obligations.EdgeHandsOffFrame := by
  intro e s he hf hs
  refine ⟨s.dec.wordWith e, decodeFrame Config.board s.rx, ?_, s.dec.getLsbD_wordWith e, rfl⟩
  rw [exec_edge, edgeWith_handsOff _ he hf hs]
  rfl

/-- EDGE answers `ACK` (R140). -/
theorem response_edgeWith (c : Config) (e : Ticks) (s : State) :
    (edgeWith c e s).response = some ⟨.ack, 0#11⟩ := by
  obtain ⟨-, h⟩ | ⟨-, -, h⟩ | ⟨-, -, -, h⟩ | ⟨-, -, -, -, h⟩ | ⟨-, -, -, -, h⟩ := edgeWith_cases c e s <;> rw [h]

/-- Settles O41: both intervals carry the bit 0, and nothing else of them is used. -/
theorem shortIntervalIsZeroBit : Obligations.ShortIntervalIsZeroBit := by
  intro e e' s he _ he'
  have hbit : dataBit e = false := decide_eq_false (by omega)
  have hbit' : dataBit e' = false := decide_eq_false (by omega)
  refine ⟨edgeWith Config.board e s, exec_edge e s, ?_, response_edgeWith _ e s, fun hb hn => ?_⟩
  · rw [exec_edge, edgeWith_data _ s (by omega), edgeWith_data _ s (by omega), hbit, hbit']
  · rw [edgeWith_accumulates _ (by omega) hb hn]
    refine ⟨?_, BitVec.toNat_add_of_lt (by simp; omega), rfl⟩
    rw [Dec.getLsbD_wordWith _ _ _ (by omega), if_pos rfl]
    exact hbit

/-! ### A clean Legacy frame -/

/-- A word written to the buffer, in the order of transmission (R70). -/
theorem transmittedBit_setWord (b : FrameBuf) {i n : Nat} (v : Word) (hi : i < 4) (hn : n < 128) :
    transmittedBit .legacy (b.setWord i v) n =
      if n / 32 = i then v.getLsbD (31 - n % 32) else transmittedBit .legacy b n := by
  simp only [transmittedBit, b.getLsbD_bits_setWord v hi (k := 32 * (n / 32) + (31 - n % 32)) (by omega)]
  by_cases h : n / 32 = i
  · rw [if_pos (by omega), if_pos h, h, Nat.add_sub_cancel_left]
  · rw [if_neg (by omega), if_neg h]

/-- The buffer with the partial word stored in its slot. -/
def Dec.fill (d : Dec) (b : FrameBuf) : FrameBuf := b.setWord d.wordSlot.toNat d.accumulatingWord

/-- The decoder has taken the two long edges of a frame and then `bits`, the frame not yet complete: they stand in the buffer
and the partial word, most significant first, and the rest of the partial word is 0. -/
structure Assembling (bits : List Bool) (d : Dec) (b : FrameBuf) : Prop where
  length_lt : bits.length < 112
  wordSlot : d.wordSlot.toNat = bits.length / 32
  bitIndex : d.bitIndex.toNat = bits.length % 32
  edgeCount : d.edgeCount.toNat = bits.length + 2
  fill : ∀ n, n < 32 * (bits.length / 32 + 1) → transmittedBit .legacy (d.fill b) n = bits.getD n false

theorem getD_concat (bits : List Bool) (x : Bool) (n : Nat) :
    (bits ++ [x]).getD n false = if n = bits.length then x else bits.getD n false := by
  grind

section
variable {bits : List Bool} {d : Dec} {b : FrameBuf} (h : Assembling bits d b) (e : Ticks)
include h

/-- The next bit, stored with the partial word, comes after those already there. -/
theorem Assembling.transmittedBit_wordWith {n : Nat} (hn : n < 32 * (bits.length / 32 + 1)) :
    transmittedBit .legacy (b.setWord d.wordSlot.toNat (d.wordWith e)) n = (bits ++ [dataBit e]).getD n false := by
  obtain ⟨hlen, hslot, hbit, -, hfill⟩ := h
  have hold := hfill n hn
  rw [Dec.fill, transmittedBit_setWord _ _ (by omega) (by omega)] at hold
  rw [transmittedBit_setWord _ _ (by omega) (by omega), Dec.getLsbD_wordWith _ _ _ (by omega), getD_concat]
  by_cases hlast : n = bits.length
  · rw [if_pos (by omega), if_pos (by omega), if_pos hlast]
    rfl
  · rw [if_neg hlast, ← hold]
    split_ifs with hword hpos
    · omega
    · rfl
    · rfl

theorem Assembling.toNat_edgeCount_succ : (d.edgeCount + 1#32).toNat = bits.length + 3 := by
  have hcount := h.edgeCount
  have hlen := h.length_lt
  bv_omega

/-- A bit inside a word moves the bit index on (R145). -/
theorem Assembling.accumulate (hb : d.bitIndex.toNat < 31) (hlen : bits.length < 111) :
    Assembling (bits ++ [dataBit e]) ⟨d.wordWith e, d.bitIndex + 1#5, d.wordSlot, d.edgeCount + 1#32⟩ b := by
  have hslot := h.wordSlot
  have hbit := h.bitIndex
  have hnext : (d.bitIndex + 1#5).toNat = d.bitIndex.toNat + 1 := BitVec.toNat_add_of_lt (by simp; omega)
  have hlength : (bits ++ [dataBit e]).length = bits.length + 1 := List.length_append
  refine ⟨?_, ?_, ?_, h.toNat_edgeCount_succ.trans ?_, fun n hn => h.transmittedBit_wordWith e (by omega)⟩ <;>
    simp only [hlength] <;> omega

/-- The last bit of a word begins the next one (R147). -/
theorem Assembling.finalise (hb : d.bitIndex.toNat = 31) (hlen : bits.length < 111) :
    Assembling (bits ++ [dataBit e]) ⟨0#32, 0#5, d.wordSlot + 1#2, d.edgeCount + 1#32⟩
      (b.setWord d.wordSlot.toNat (d.wordWith e)) := by
  have hslot := h.wordSlot
  have hbit := h.bitIndex
  have hnext : (d.wordSlot + 1#2).toNat = d.wordSlot.toNat + 1 := BitVec.toNat_add_of_lt (by simp; omega)
  have hlength : (bits ++ [dataBit e]).length = bits.length + 1 := List.length_append
  refine ⟨by omega, ?_, ?_, h.toNat_edgeCount_succ.trans ?_, fun n hn => ?_⟩
  · simp only [hlength]
    omega
  · simp only [hlength, BitVec.toNat_ofNat]
    omega
  · omega
  · simp only [Dec.fill, hnext]
    rw [transmittedBit_setWord _ _ (by omega) (by omega)]
    split_ifs with hnew
    · rw [List.getD_eq_default _ _ (by omega)]
      exact BitVec.getLsbD_zero
    · exact h.transmittedBit_wordWith e (by omega)

end

/-- A data edge before the last one of a frame adds its bit, and touches neither `LAST` nor the effects (R145, R147). -/
theorem Assembling.afterEdge {bits : List Bool} {s : State} (h : Assembling bits s.dec s.rx) (c : Config) {e : Ticks}
    (he : e.toNat ≤ 400) (hlen : bits.length < 111) :
    Assembling (bits ++ [dataBit e]) (edgeWith c e s).dec (edgeWith c e s).rx ∧ (edgeWith c e s).last = s.last ∧
      (edgeWith c e s).effects = [] := by
  by_cases hb : s.dec.bitIndex.toNat < 31
  · have hn : s.dec.edgeCount + 1#32 ≠ 114#32 := fun h114 => by
      have hcount := h.toNat_edgeCount_succ
      rw [h114, BitVec.toNat_ofNat] at hcount
      omega
    rw [edgeWith_accumulates c he hb hn]
    exact ⟨h.accumulate e hb hlen, rfl, rfl⟩
  · have hb' : s.dec.bitIndex.toNat = 31 := by omega
    have hslot := h.wordSlot
    have hbit := h.bitIndex
    rw [edgeWith_finalises c he (.inl hb') (by omega)]
    exact ⟨h.finalise e hb' hlen, rfl, rfl⟩

/-- What a frame's edges come to: `bits` stand in `RX`, zeros after them; the position is back at the start; the frame is
reported iff its address is the constant (R148, R161, R166 to R168). -/
structure HandedOff (c : Config) (bits : List Bool) (last : Last) (t : State) (fx : List Effect) : Prop where
  dec : t.dec = ⟨0#32, 0#5, 0#2, 0#32⟩
  rx : ∀ n, n < 128 → transmittedBit .legacy t.rx n = bits.getD n false
  outcome :
    if t.rx.w0 = c.addrL then
      t.last = decodeFrame c t.rx ∧ fx = [.report t.last.temperature t.last.fanIndex t.last.blowerOn]
    else t.last = last ∧ fx = []

/-- The 112th data edge of a frame makes the count 114, in the middle of the fourth word (R146). -/
theorem Assembling.handedOff {bits : List Bool} {s : State} (h : Assembling bits s.dec s.rx) (c : Config) {e : Ticks}
    (he : e.toNat ≤ 400) (hlen : bits.length = 111) :
    HandedOff c (bits ++ [dataBit e]) s.last (edgeWith c e s) (edgeWith c e s).effects := by
  have hslot : s.dec.wordSlot.toNat = 3 := by rw [h.wordSlot, hlen]
  have hcount : s.dec.edgeCount + 1#32 = 114#32 :=
    BitVec.eq_of_toNat_eq (h.toNat_edgeCount_succ.trans (congrArg (· + 3) hlen))
  rw [edgeWith_handsOff c he (.inr hcount) hslot]
  refine ⟨rfl, fun n hn => ?_, ?_⟩
  · rw [← h.transmittedBit_wordWith e (by omega), hslot]
    rfl
  · show if s.rx.w0 = c.addrL then _ else _
    split_ifs with ha <;> exact ⟨rfl, rfl⟩

theorem stateAfter_edge_cons (c : Config) (e : Ticks) (rest : List Ticks) (s : State) :
    stateAfter c ((e :: rest).map .edge) s = stateAfter c (rest.map .edge) (edgeWith c e s) := rfl

theorem effectsOf_edge_cons (c : Config) (e : Ticks) (rest : List Ticks) (s : State) :
    effectsOf c ((e :: rest).map .edge) s =
      (edgeWith c e s).effects ++ effectsOf c (rest.map .edge) (edgeWith c e s) := rfl

/-- The data edges that are left complete the frame (R149). -/
theorem Assembling.handedOff_stateAfter (c : Config) {data : List Ticks} {bits : List Bool} {s : State}
    (h : Assembling bits s.dec s.rx) (hlen : bits.length + data.length = 112) (hdata : ∀ e ∈ data, e.toNat ≤ 400) :
    HandedOff c (bits ++ data.map dataBit) s.last (stateAfter c (data.map .edge) s)
      (effectsOf c (data.map .edge) s) := by
  induction data generalizing bits s with
  | nil => exact absurd hlen h.length_lt.ne
  | cons e rest ih =>
    obtain ⟨he, hrest⟩ := List.forall_mem_cons.1 hdata
    rw [List.length_cons] at hlen
    by_cases hlast : bits.length = 111
    · obtain rfl : rest = [] := List.length_eq_zero_iff.1 (by omega)
      rw [effectsOf_edge_cons]
      simpa [stateAfter, effectsOf, eventWith] using h.handedOff c he hlast
    · obtain ⟨hnext, hl, hfx⟩ := h.afterEdge c he (by omega)
      have hdone := ih hnext (by rw [List.length_append, List.length_singleton]; omega) hrest
      rw [effectsOf_edge_cons, hfx]
      rwa [List.append_assoc, hl] at hdone

/-- After two long intervals from count 0 a frame begins, whatever the buffer holds (R143, R149). -/
theorem assembling_nil (b : FrameBuf) : Assembling [] ⟨0#32, 0#5, 0#2, 2#32⟩ b := by
  refine ⟨by decide, rfl, rfl, rfl, fun n (hn : n < 32) => ?_⟩
  simp only [Dec.fill]
  rw [transmittedBit_setWord _ _ (by decide) (by omega)]
  exact (if_pos (Nat.div_eq_of_lt hn)).trans BitVec.getLsbD_zero

/-- From count 0, two long intervals and 112 data intervals hand their frame off (R149). -/
theorem handedOff_cleanFrame (c : Config) {gap start : Ticks} {data : List Ticks} {s : State}
    (h0 : s.dec.edgeCount = 0#32) (hgap : 400 < gap.toNat) (hstart : 400 < start.toNat) (hlen : data.length = 112)
    (hdata : ∀ e ∈ data, e.toNat ≤ 400) :
    HandedOff c (data.map dataBit) s.last (stateAfter c ((gap :: start :: data).map .edge) s)
      (effectsOf c ((gap :: start :: data).map .edge) s) := by
  rw [effectsOf_edge_cons, effectsOf_edge_cons, stateAfter_edge_cons, stateAfter_edge_cons, edgeWith_resync c s hgap,
    edgeWith_resync c _ hstart, h0]
  exact (assembling_nil s.rx).handedOff_stateAfter c (s := { s with
    dec := ⟨0#32, 0#5, 0#2, 2#32⟩, response := some ⟨.ack, 0#11⟩, effects := [] }) (by simpa using hlen) hdata

/-- Settles O52: the bits handed off are the classified ones, read in the order of transmission. -/
theorem cleanLegacyFrameIsAssembled : Obligations.CleanLegacyFrameIsAssembled := by
  intro c s gap start data h0 hgap hstart hlen hdata t
  obtain ⟨hdec, hrx, houtcome⟩ := handedOff_cleanFrame c h0 hgap hstart hlen hdata
  refine ⟨hdec, fun n hn => ?_, fun n hge hlt => ?_, houtcome⟩
  · rw [hrx n (by omega), List.getD_eq_getElem _ _ (by simpa using hn), List.getElem_map]
    rfl
  · rw [hrx n hlt, List.getD_eq_default _ _ (by simpa [hlen] using hge)]

end Sys2Proof.Machine
end

section
/-! PROOFS. The frame interpreter (43_interpreter.md): the three decoded fields (R162 to R164), and the checksum word that
is read by nothing (R169). -/
namespace Sys2Proof.Machine

/-! ### The decoded fields -/

/-- The search over the known codes answers the lowest temperature that passes (R162). -/
theorem find?_tempRange_eq_some {p : Byte → Bool} {t : Byte} (ht : t ∈ tempRange) (hp : p t = true)
    (hlow : ∀ u ∈ tempRange, u.toNat < t.toNat → p u = false) : tempRange.find? p = some t := by
  have hrange := (mem_tempRange t).1 ht
  have hfind : (List.range' decTempMin (decTempMax + 1 - decTempMin)).find? (p ∘ BitVec.ofNat 8) = some t.toNat := by
    refine List.find?_range'_eq_some.2 ⟨by simpa using hp, ?_, fun j hj hlt => ?_⟩
    · simp only [List.mem_range'_1, decTempMin, decTempMax]
      omega
    · have hj' : (BitVec.ofNat 8 j).toNat = j := Nat.mod_eq_of_lt (by omega)
      simp only [decTempMin] at hj
      simpa using hlow (BitVec.ofNat 8 j) ((mem_tempRange _).2 (by omega)) (by omega)
  rw [tempRange, List.find?_map, hfind]
  simp

/-- Settles O38: the search passes over the temperatures below `t`, or over all 15. -/
theorem temperatureIsFirstMatchingCode : Obligations.TemperatureIsFirstMatchingCode := by
  refine fun c w => ⟨fun t hge hle hcode hlow => ?_, fun hnone => ?_⟩
  · have hfind : tempRange.find? (fun t => w == (c.codeL t).c1) = some t := by
      refine find?_tempRange_eq_some ((mem_tempRange t).2 ⟨hge, hle⟩) (beq_iff_eq.2 hcode.symm) fun u hu hlt => ?_
      exact beq_false_of_ne (hlow u ((mem_tempRange u).1 hu).1 hlt).symm
    rw [decodeTemp, hfind]
  · have hfind : tempRange.find? (fun t => w == (c.codeL t).c1) = none := by
      refine List.find?_eq_none.2 fun t ht heq => ?_
      obtain ⟨hge, hle⟩ := (mem_tempRange t).1 ht
      exact hnone t hge hle (beq_iff_eq.1 heq).symm
    rw [decodeTemp, hfind]
    rfl

/-- The blower's threshold, by numbers (R164). -/
theorem decodeBlower_iff (c : Config) (w : Word) :
    decodeBlower c w = true ↔
      c.blowerThreshold.toNat < w.toNat / 2 ^ c.blowerShift.toNat &&& c.blowerFieldMask.toNat := by
  rw [decodeBlower, decide_eq_true_iff, BitVec.lt_def, BitVec.toNat_and, BitVec.toNat_ushiftRight,
    Nat.shiftRight_eq_div_pow]

/-- Settles O39: the patterns are tried in order, so each clause takes its own branch. -/
theorem fanAndBlowerFields : Obligations.FanAndBlowerFields := by
  intro c w
  rw [decodeFan_eq]
  refine ⟨fun h0 => if_pos h0, fun h0 h1 => ?_, fun h0 h1 h2 => ?_, fun h0 h1 h2 => ?_, decodeBlower_iff c w⟩
  · rw [if_neg h0, if_pos h1]
  · rw [if_neg h0, if_neg h1, if_pos h2]
  · rw [if_neg h0, if_neg h1, if_neg h2]
    rfl

/-! ### The checksum word -/

/-- `s` with the received checksum word replaced. -/
def State.withChecksum (s : State) (w : Word) : State := { s with rx := { s.rx with w3 := w } }

/-- A store into one of the first three slots leaves the fourth word as it is. -/
theorem FrameBuf.setWord_of_lt_three (b : FrameBuf) {i : Nat} (v w : Word) (hi : i < 3) :
    ({ b with w3 := w } : FrameBuf).setWord i v = { b.setWord i v with w3 := w } := by
  match i, hi with
  | 0, _ | 1, _ | 2, _ => rfl

/-- EDGE keeps the checksum word, or overwrites it at a hand-off; it does not read it (R147, R148, R169). -/
theorem edgeWith_withChecksum (c : Config) (e : Ticks) (s : State) (w : Word) :
    ∃ w', edgeWith c e (s.withChecksum w) = (edgeWith c e s).withChecksum w' := by
  by_cases he : 400 < e.toNat
  · rw [edgeWith_resync c s he, edgeWith_resync c _ he]
    exact ⟨w, rfl⟩
  have he' : e.toNat ≤ 400 := Nat.not_lt.1 he
  by_cases hf : s.dec.bitIndex.toNat = 31 ∨ s.dec.edgeCount + 1#32 = 114#32
  swap
  · obtain ⟨hb, hn⟩ := not_or.1 hf
    have hlt : s.dec.bitIndex.toNat < 31 := by omega
    rw [edgeWith_accumulates c he' hlt hn, edgeWith_accumulates (s := s.withChecksum w) c he' hlt hn]
    exact ⟨w, rfl⟩
  by_cases hs : s.dec.wordSlot.toNat < 3
  · rw [edgeWith_finalises c he' hf hs, edgeWith_finalises (s := s.withChecksum w) c he' hf hs]
    refine ⟨w, ?_⟩
    rw [State.withChecksum, s.rx.setWord_of_lt_three _ w hs]
    rfl
  · have hs' : s.dec.wordSlot.toNat = 3 := by omega
    rw [edgeWith_handsOff c he' hf hs', edgeWith_handsOff (s := s.withChecksum w) c he' hf hs']
    exact ⟨s.dec.wordWith e, rfl⟩

/-- The encoder's events leave the checksum word as it is (R35). -/
theorem eventWith_withChecksum (c : Config) {i : Instr} (hi : encoderSide i = true) (s : State) (w : Word) :
    eventWith c i (s.withChecksum w) = (eventWith c i s).withChecksum w :=
  calc eventWith c i (s.withChecksum w)
    _ = ((eventWith c i s).withDecoderOf s).withChecksum w := eventWith_of_encoderPart_eq c hi rfl
    _ = (eventWith c i s).withChecksum w :=
      congrArg (·.withChecksum w) (eventWith_of_encoderPart_eq c hi rfl).symm

/-- No event's next state, response or effects depend on the checksum word, but for that word itself (R169). -/
theorem exists_eventWith_withChecksum (c : Config) (i : Instr) (s : State) (w : Word) :
    ∃ w', eventWith c i (s.withChecksum w) = (eventWith c i s).withChecksum w' := by
  cases i with
  | req v temp now | ledOn | ledOff | tick now => exact ⟨w, eventWith_withChecksum c rfl s w⟩
  | getSt => exact ⟨w, rfl⟩
  | edge e => exact edgeWith_withChecksum c e s w

/-- Settles O47: the second run is the first with its checksum word replaced. -/
theorem checksumIsReadByNothing : Obligations.ChecksumIsReadByNothing := by
  intro i s w
  obtain ⟨w', h⟩ := exists_eventWith_withChecksum Config.board i s w
  exact ⟨_, _, exec_eq i s, (exec_eq i (s.withChecksum w)).trans (congrArg _ h), rfl⟩

end Sys2Proof.Machine
end

section
/-! PROOFS. The round trip of a Legacy request (43_interpreter.md R170): the symbols of its first frame, converted to
edges, carry the words of its frame, and the interpreter reads the requested temperature from them. -/
namespace Sys2Proof.Machine

/-! ### The symbols of the frame and their edges -/

theorem symbolsIn_map_symbolEffect (f : Nat → TimingEntry) (ns : List Nat) :
    symbolsIn (ns.map fun n => symbolEffect (f n)) = ns.map f := by
  induction ns with
  | nil => rfl
  | cons n ns ih => exact congrArg (f n :: ·) ih

/-- The symbols of a Legacy frame: the start symbol, then one for each of its 113 bits (R72). -/
def legacySymbols (c : Config) (b : FrameBuf) : List TimingEntry :=
  c.tt.legacyStart :: (List.range 113).map fun n => dataEntry c .legacy (transmittedBit .legacy b n)

/-- A Legacy frame sent whole programs the symbols of the frame in `F` (R124). -/
theorem symbolsIn_legacyFrame (c : Config) {s : State} {nows : List Ticks} (h : JustIssued s.enc)
    (hv : s.enc.variant = .legacy) (hlen : nows.length = 116)
    (hnows : ∀ n ∈ nows, 100 ≤ (n - s.enc.issuedAtTick).toNat) :
    symbolsIn (effectsOf c (nows.map .tick) s) = legacySymbols c s.f := by
  have hbits : s.enc.frameLenBits.toNat = 113 := by rw [h.frameLen, hv]; rfl
  have hnotModern : ¬ (s.enc.variant = .modern ∧ s.enc.repeatCount.toNat < 9 ∧ s.enc.repeatCount.toNat % 2 = 0) :=
    fun hm => absurd (hv.symm.trans hm.1) nofun
  rw [frameIsSentWhole c s nows h.issued h.addressSent h.commReady h.bitIndex h.wordIndex h.frameLen
    (hlen.trans (congrArg (· + 3) hbits.symm)) hnows, if_neg hnotModern, hbits, hv]
  simp only [symbolsIn_append, symbolsIn_map_symbolEffect]
  simp [symbolsIn, symbolEffect, startEntry, legacySymbols]

/-- A Legacy request's first frame is the ROM's (R70, R102). -/
theorem symbolsIn_legacyRequest (c : Config) (s : State) {t : Byte} {now : Ticks} {nows : List Ticks}
    (ht : t ∈ tempSet .legacy) (hlen : nows.length = 116) (hnows : ∀ n ∈ nows, 100 ≤ (n - now).toNat) :
    symbolsIn (effectsOf c (.req .legacy t now :: nows.map .tick) s) =
      legacySymbols c (loadFrame c t .legacy s.f) := by
  obtain ⟨-, heq⟩ | ⟨hf, -⟩ := reqWith_cases c .legacy t now s
  · rw [effectsOf, eventWith, heq]
    exact symbolsIn_legacyFrame c ⟨rfl, rfl, rfl, rfl, rfl, rfl⟩ rfl hlen hnows
  · exact absurd ht hf

/-- A frame's edges: the gap, the start symbol's, and one for each bit but the last (R77). -/
theorem edgesOf_legacySymbols (c : Config) (gap : Ticks) (b : FrameBuf) :
    edgesOf c gap (legacySymbols c b) =
      gap :: edgeOperand c c.tt.legacyStart.period :: (List.range 112).map fun n =>
        edgeOperand c (dataEntry c .legacy (transmittedBit .legacy b n)).period := by
  rw [legacySymbols, edgesOf, List.range_succ, List.map_append, List.map_singleton, ← List.cons_append,
    List.dropLast_concat, List.map_cons, List.map_map]
  rfl

section
variable {c : Config} (h : DecodableTiming c)
include h

/-- The start symbol's edge is a resync (R46, R142). -/
theorem DecodableTiming.start_long : 400 < (edgeOperand c c.tt.legacyStart.period).toNat := by
  rw [toNat_edgeOperand c _ h.startFits, ← not_le, ceilTicks_le_iff c _ _ h.ratio]
  exact not_le.2 h.startLong

/-- A data symbol's edge is no resync and carries the symbol's bit (R46, R142). -/
theorem DecodableTiming.data_edge (b : Bool) :
    (edgeOperand c (dataEntry c .legacy b).period).toNat ≤ 400 ∧
      dataBit (edgeOperand c (dataEntry c .legacy b).period) = b := by
  cases b with
  | true =>
    have hle := (ceilTicks_le_iff c c.tt.legacyOne.period 400 h.ratio).2 h.oneBelow
    have hgt := mt (ceilTicks_le_iff c c.tt.legacyOne.period 160 h.ratio).1 (not_le.2 h.oneAbove)
    rw [dataEntry, dataBit, toNat_edgeOperand c _ (by omega)]
    exact ⟨hle, decide_eq_true (not_le.1 hgt)⟩
  | false =>
    have hle := (ceilTicks_le_iff c c.tt.legacyZero.period 160 h.ratio).2 h.zeroBelow
    rw [dataEntry, dataBit, toNat_edgeOperand c _ (by omega)]
    exact ⟨by omega, decide_eq_false (not_lt.2 hle)⟩

end

/-! ### The words of a frame -/

/-- Two frames with the same bits in a word have the same word (R70). -/
theorem word?_eq_of_transmittedBit_eq {a b : FrameBuf} {i : Nat} (hi : i < 4)
    (h : ∀ n, n / 32 = i → transmittedBit .legacy a n = transmittedBit .legacy b n) : a.word? i = b.word? i := by
  rw [a.word?_eq, b.word?_eq, if_pos hi, if_pos hi]
  refine congrArg some (BitVec.eq_of_getLsbD_eq fun k hk => ?_)
  have hbit := h (32 * i + (31 - k)) (by omega)
  simp only [transmittedBit, show (32 * i + (31 - k)) / 32 = i by omega,
    show 31 - (32 * i + (31 - k)) % 32 = k by omega] at hbit
  simpa [BitVec.getLsbD_extractLsb', hk] using hbit

/-- Of a received frame the interpreter reads the address and the payload words, 96 bits in all (R160 to R164, R169). -/
theorem address_and_decodeFrame_of_transmittedBit_eq (c : Config) {a b : FrameBuf}
    (h : ∀ n, n < 96 → transmittedBit .legacy a n = transmittedBit .legacy b n) :
    a.w0 = b.w0 ∧ decodeFrame c a = decodeFrame c b := by
  have hword : ∀ i, i < 3 → a.word? i = b.word? i := fun i hi =>
    word?_eq_of_transmittedBit_eq (by omega) fun n hn => h n (by omega)
  have h1 : a.w1 = b.w1 := Option.some.inj (hword 1 (by decide))
  have h2 : a.w2 = b.w2 := Option.some.inj (hword 2 (by decide))
  refine ⟨Option.some.inj (hword 0 (by decide)), ?_⟩
  rw [decodeFrame, decodeFrame, h1, h2]

/-- With distinct codes the code of a temperature decodes to it and to no lower one (R162). -/
theorem decodeTemp_codeL {c : Config} (hc : DistinctCodes c) {t : Byte} (ht : t ∈ tempRange) :
    decodeTemp c (c.codeL t).c1 = t := by
  obtain ⟨hge, hle⟩ := (mem_tempRange t).1 ht
  refine (temperatureIsFirstMatchingCode c _).1 t hge hle rfl fun u hu hlt heq => ?_
  obtain rfl := hc u ((mem_tempRange u).2 (by omega)) t ht heq
  exact lt_irrefl _ hlt

/-! ### Both directions together -/

/-- The encoder's events leave the decoder's half as it is, however many there are (R35). -/
theorem decoderPart_stateAfter (c : Config) {is : List Instr} (his : ∀ i ∈ is, encoderSide i = true) (s : State) :
    (stateAfter c is s).decoderPart = s.decoderPart := by
  induction is generalizing s with
  | nil => rfl
  | cons i rest ih =>
    obtain ⟨hi, hrest⟩ := List.forall_mem_cons.1 his
    exact (ih hrest _).trans (decoderPart_eventWith c hi s)

/-- The symbols of a frame, received from count 0, hand off all its bits but the last (R46, R149). -/
theorem handedOff_legacySymbols {c : Config} (h : DecodableTiming c) {s : State} {gap : Ticks} (b : FrameBuf)
    (h0 : s.dec.edgeCount = 0#32) (hgap : 400 < gap.toNat) :
    HandedOff c ((List.range 112).map (transmittedBit .legacy b)) s.last
      (stateAfter c (pseudoSymbols c gap (legacySymbols c b)) s)
      (effectsOf c (pseudoSymbols c gap (legacySymbols c b)) s) := by
  have hbits : ((List.range 112).map fun n =>
      edgeOperand c (dataEntry c .legacy (transmittedBit .legacy b n)).period).map dataBit =
      (List.range 112).map (transmittedBit .legacy b) := by
    rw [List.map_map]
    exact List.map_congr_left fun n _ => (h.data_edge _).2
  rw [pseudoSymbols, edgesOf_legacySymbols, ← hbits]
  exact handedOff_cleanFrame c h0 hgap h.start_long (by simp) (List.forall_mem_map.2 fun n _ => (h.data_edge _).1)

/-- A frame handed off with the address constant is reported as it decodes (R160, R166 to R168, R170). -/
theorem HandedOff.report {c : Config} {b : FrameBuf} {last : Last} {t : State} {fx : List Effect}
    (h : HandedOff c ((List.range 112).map (transmittedBit .legacy b)) last t fx) (hb : b.w0 = c.addrL) :
    t.last = decodeFrame c b ∧
      fx = [.report (decodeFrame c b).temperature (decodeFrame c b).fanIndex (decodeFrame c b).blowerOn] := by
  have hsame : ∀ n, n < 96 → transmittedBit .legacy t.rx n = transmittedBit .legacy b n := fun n hn => by
    rw [h.rx n (by omega), List.getD_eq_getElem _ _ (by simp; omega), List.getElem_map, List.getElem_range]
  obtain ⟨haddr, hframe⟩ := address_and_decodeFrame_of_transmittedBit_eq c hsame
  have houtcome := h.outcome
  rw [if_pos (haddr.trans hb)] at houtcome
  obtain ⟨hlast, hfx⟩ := houtcome
  have hl := hlast.trans hframe
  exact ⟨hl, hl ▸ hfx⟩

/-- Settles O53: the frame sent is the ROM's, so its first word is the address constant and its second the temperature's
code. -/
theorem legacyRoundTrip : Obligations.LegacyRoundTrip := by
  intro c s t now gap nows htiming hcodes ht h0 hgap hlen hnows sent received l
  have hl : decodeFrame c (loadFrame c t .legacy s.f) = l := by
    rw [loadFrame_legacy, decodeFrame, decodeTemp_codeL hcodes ht]
  have hdec : (stateAfter c sent s).dec = s.dec :=
    congrArg Prod.fst (decoderPart_stateAfter c (by simp [sent, encoderSide]) s)
  have hmem : t ∈ tempSet .legacy := List.mem_cons_of_mem _ (List.mem_cons_of_mem _ ht)
  have hreceived : received = pseudoSymbols c gap (legacySymbols c (loadFrame c t .legacy s.f)) :=
    congrArg (pseudoSymbols c gap) (symbolsIn_legacyRequest c s hmem hlen hnows)
  rw [hreceived, ← hl]
  exact (handedOff_legacySymbols htiming _ (hdec ▸ h0) hgap).report rfl

end Sys2Proof.Machine
end

section
/-! PROOFS. What any event and any word can bring about (60_exceptions.md): the empty stream (R181), reserved words (R178),
that every word is answered (R175), and the Timing Source's side of an event (R186). -/
namespace Sys2Proof

/-! ### Reserved words -/

/-- The four cases of R65: an opcode without a row, `rsv` non-zero, `v` or `temp` non-zero outside REQ, and `t32`
non-zero in LEDON, LEDOFF or GETST. -/
def EventFields.Reserved (f : EventFields) : Prop :=
  f.op = 0#3 ∨ f.op = 7#3 ∨ f.rsv ≠ 0#4 ∨ (f.op ≠ 1#3 ∧ (f.v ≠ 0#1 ∨ f.temp ≠ 0#8)) ∨
    ((f.op = 2#3 ∨ f.op = 3#3 ∨ f.op = 4#3) ∧ f.t32 ≠ 0#32)

theorem not_reserved_fieldsOfInstr (i : Instr) : ¬ (fieldsOfInstr i).Reserved := by
  cases i <;> simp [EventFields.Reserved, fieldsOfInstr]

/-- A reserved word is the encoding of no event, so the decoder rejects it (R65). -/
theorem exists_decode_eq_error {w : EventWord} (h : (fieldsOf w).Reserved) : ∃ e, decode w = .error e := by
  cases hw : decode w with
  | error e => exact ⟨e, rfl⟩
  | ok i =>
    have hf : fieldsOf w = fieldsOfInstr i := (decodeFields_eq_ok_iff _ _).1 hw
    exact absurd (hf ▸ h) (not_reserved_fieldsOfInstr i)

/-- The seven entries of the timing table (R44). -/
def TimingTable.entries (tt : TimingTable) : List TimingEntry :=
  [tt.legacyStart, tt.legacyOne, tt.legacyZero, tt.modernStart, tt.modernOne, tt.modernZero, tt.modernRest]

end Sys2Proof

namespace Sys2Proof.Machine

/-- A word that is no event is taken off the stream and answered `NAK` (R65, R178). -/
theorem step_of_decode_error {s : State} {w : EventWord} {rest : List EventWord} {e : DecodeError}
    (hs : s.stream = w :: rest) (hw : decode w = .error e) :
    step s = .next (State.nak { s with stream := rest }) := by
  simp only [step, hs, hw]

/-- Settles O10: the four cases are those of the word's fields, and none of them decodes. -/
theorem reservedWordAnswersNak : Obligations.ReservedWordAnswersNak := by
  intro s w rest hs hreserved
  obtain ⟨e, hw⟩ := exists_decode_eq_error hreserved
  exact step_of_decode_error hs hw

/-! ### Every step is answered -/

/-- Settles O11: the first arm of `step`. -/
theorem noEventNoChange : Obligations.NoEventNoChange := by
  intro s hs
  simp only [step, hs]

theorem response_frameCompletePhase (c : Config) (now : Ticks) (s : State) :
    (frameCompletePhase c now s).response = s.response := by
  obtain ⟨-, -, h⟩ | ⟨-, -, -, h⟩ | ⟨-, -, -, h⟩ | ⟨-, h⟩ := frameCompletePhase_cases c now s <;> rw [h]

/-- TICK answers `ACK` in every phase, handled or not (R66, R110). -/
theorem response_tickWith (c : Config) (now : Ticks) (s : State) :
    (tickWith c now s).response = some ⟨.ack, 0#11⟩ := by
  obtain ⟨-, h⟩ | ⟨-, -, h⟩ | ⟨-, -, h⟩ | ⟨-, -, -, h⟩ | ⟨-, -, -, -, h⟩ | ⟨-, -, -, -, h⟩ := tickWith_cases c now s <;>
    rw [h]
  · rfl
  · rfl
  · rfl
  · rfl
  · rfl
  · exact response_frameCompletePhase c now s.begin

theorem exists_response_eventWith (c : Config) (i : Instr) (s : State) :
    ∃ r, (eventWith c i s).response = some r := by
  cases i with
  | req v temp now =>
    obtain ⟨-, h⟩ | ⟨-, h⟩ := reqWith_cases c v temp now s
    · exact ⟨_, congrArg State.response h⟩
    · exact ⟨_, congrArg State.response h⟩
  | ledOn | ledOff | getSt => exact ⟨_, rfl⟩
  | tick now => exact ⟨_, response_tickWith c now s⟩
  | edge e => exact ⟨_, response_edgeWith c e s⟩

/-- Settles O12: a word that decodes is answered by its event, any other by `NAK`. -/
theorem everyEventWordCompletes : Obligations.EveryEventWordCompletes := by
  intro s w rest hs
  cases hw : decode w with
  | error e => exact ⟨_, _, step_of_decode_error hs hw, rfl, rfl⟩
  | ok i =>
    obtain ⟨r, hr⟩ := exists_response_eventWith Config.board i { s with stream := rest }
    exact ⟨_, r, (stepRunsTheDecodedEvent s w rest i hs hw).trans (exec_eq _ _), hr, stream_eventWith _ i _⟩

/-! ### The Timing Source -/

theorem startEntry_mem_entries (c : Config) (v : Variant) : startEntry c v ∈ c.tt.entries := by
  cases v <;> simp [startEntry, TimingTable.entries]

theorem dataEntry_mem_entries (c : Config) (v : Variant) (bit : Bool) :
    dataEntry c v bit ∈ c.tt.entries := by
  cases v <;> cases bit <;> simp [dataEntry, TimingTable.entries]

theorem modernRest_mem_entries (c : Config) : c.tt.modernRest ∈ c.tt.entries := by
  simp [TimingTable.entries]

/-- The end of a frame programs nothing, or the rest timing (R119, R121). -/
theorem symbolsIn_frameEnd (c : Config) (e : Enc) :
    symbolsIn (frameEnd c e) = [] ∨ symbolsIn (frameEnd c e) = [c.tt.modernRest] := by
  unfold frameEnd
  split
  · exact .inr rfl
  · exact .inl rfl

/-- The comm-ready phase lies between the address phase and the flag it sets (R23). -/
theorem phase_ne_commReady {e : Enc} (h : e.addressSent = false ∨ e.commReady = true) : phase e ≠ .commReady := by
  intro hphase
  unfold phase at hphase
  split_ifs at hphase with hi ha hc
  obtain ha' | hc' := h
  · exact ha ha'
  · exact absurd (hc.symm.trans hc') nofun

/-- A TICK programs nothing, or one entry of the timing table; the latter only if it is handled and not in the comm-ready
phase (R186). -/
theorem symbolsIn_tickWith (c : Config) (now : Ticks) (s : State) :
    symbolsIn (tickWith c now s).effects = [] ∨
    (tickHandled s.enc now = true ∧ phase s.enc ≠ .commReady ∧
      ∃ e ∈ c.tt.entries, symbolsIn (tickWith c now s).effects = [e]) := by
  obtain ⟨-, h⟩ | ⟨-, -, h⟩ | ⟨ht, ha, h⟩ | ⟨-, -, -, h⟩ | ⟨ht, -, hc, -, h⟩ | ⟨ht, -, hc, -, h⟩ :=
    tickWith_cases c now s <;> rw [h]
  · exact .inl rfl
  · exact .inl rfl
  · exact .inr ⟨ht, phase_ne_commReady (.inl ha), _, startEntry_mem_entries c _, rfl⟩
  · exact .inl rfl
  · exact .inr ⟨ht, phase_ne_commReady (.inr hc), _, dataEntry_mem_entries c _ _, rfl⟩
  · rw [effects_frameCompletePhase]
    obtain hnone | hrest := symbolsIn_frameEnd c s.enc
    · exact .inl hnone
    · exact .inr ⟨ht, phase_ne_commReady (.inr hc), _, modernRest_mem_entries c, hrest⟩

/-- EDGE emits a report at most (R140, R168). -/
theorem symbolsIn_edgeWith (c : Config) (e : Ticks) (s : State) : symbolsIn (edgeWith c e s).effects = [] := by
  obtain ⟨-, h⟩ | ⟨-, -, h⟩ | ⟨-, -, -, h⟩ | ⟨-, -, -, -, h⟩ | ⟨-, -, -, -, h⟩ := edgeWith_cases c e s <;>
    rw [h] <;> rfl

/-- An event that programs the Timing Source is a TICK. -/
theorem symbolsIn_eventWith (c : Config) (i : Instr) (s : State) :
    symbolsIn (eventWith c i s).effects = [] ∨ ∃ now, i = .tick now := by
  cases i with
  | req v temp now =>
    obtain ⟨-, h⟩ | ⟨-, h⟩ := reqWith_cases c v temp now s
    · exact .inl (congrArg (symbolsIn ·.effects) h)
    · exact .inl (congrArg (symbolsIn ·.effects) h)
  | ledOn | ledOff | getSt => exact .inl rfl
  | tick now => exact .inr ⟨now, rfl⟩
  | edge e => exact .inl (symbolsIn_edgeWith c e s)

/-- Settles O45: what a TICK programs, and that no other event programs anything. -/
theorem setIntervalComesFromTimingTable : Obligations.SetIntervalComesFromTimingTable := by
  intro i s t h
  obtain rfl := eq_eventWith_of_exec h
  obtain hnone | ⟨now, rfl⟩ := symbolsIn_eventWith Config.board i s
  · simp [hnone]
  obtain hnone | ⟨ht, hp, e, he, hone⟩ := symbolsIn_tickWith Config.board now s
  · simp [eventWith, hnone]
  · rw [eventWith, hone]
    refine ⟨le_rfl, fun e' he' => ?_⟩
    obtain rfl := List.mem_singleton.1 he'
    exact ⟨⟨now, rfl, ht, hp⟩, by simpa [TimingTable.entries] using he⟩

end Sys2Proof.Machine
end
